-- ==== Sys2Proof/Word.lean ====
section
/-! DEFINITION. The two word types of the spec (00_scope R7): u8 and u32, both unsigned. -/

namespace Sys2Proof

/-- `u8` of 00_scope R7. -/
abbrev Byte := BitVec 8

/-- `u32` of 00_scope R7. -/
abbrev Word := BitVec 32

end Sys2Proof
end

