-- ==== Sys2Proof/Syntax.lean ====
section
/-! DEFINITION. The named sets of the spec (stages, statuses, severities, errors, ports) and the one inductive Instr,
one constructor for each row of spec/opcode_table.json, in the table's order. -/

namespace Sys2Proof

/-- Severity of a message, 30_encoding R73. -/
inductive Severity
  | default
  | debug
  | info
  | warn
  | error
deriving DecidableEq, Repr, Inhabited

/-- Stage of the sequencer, 30_encoding R75. -/
inductive Stage
  | idle
  | rstLow
  | rstSettle
  | magic
  | gapM
  | size
  | gapS
  | payload
  | cksum
  | rbPulse
deriving DecidableEq, Repr, Inhabited

/-- Status of the last upload, 30_encoding R76. -/
inductive Status
  | none
  | run
  | ok
  | fail
deriving DecidableEq, Repr, Inhabited

/-- The error codes held in `tx.err`, 30_encoding R77 and 60_exceptions R200. -/
inductive ErrCode
  | none
  | parseError
  | emptyImageError
  | ioError
  | transportError
deriving DecidableEq, Repr, Inhabited

/-- Level of a control line, 10_state R28: not the voltage, but whether the line is asserted. -/
inductive Level
  | inactive
  | active
deriving DecidableEq, Repr, Inhabited

/-- One of the two control lines, 10_state R28. -/
inductive Line
  | a
  | b
deriving DecidableEq, Repr, Inhabited

/-- Logical level on a physical line (00_scope R6, parameters LINE_A_ACTIVE and LINE_B_ACTIVE). -/
inductive Voltage
  | low
  | high
deriving DecidableEq, Repr, Inhabited

/-- The quiet timer's one bit, 10_state R32. -/
inductive Timer
  | idle
  | armed
deriving DecidableEq, Repr, Inhabited

/-- The agents of 00_scope R5 that issue operations. -/
inductive Agent
  | rxc
  | tmr
  | upl
  | dev
  | host
deriving DecidableEq, Repr, Inhabited

/-- The seven configuration registers of 10_state R29, in the order of their indices. -/
inductive CfgReg
  | tDown
  | tSettle
  | tGap
  | chunk
  | tSample
  | tQuiet
  | tRestart
deriving DecidableEq, Repr, Inhabited

/-- The operand of `IMG.PARSE`, 41_frame_build R110. -/
inductive Source
  | unreadable
  | text (t : List Byte)
deriving DecidableEq, Repr, Inhabited

/-- What DEV answers to a write, a line change, an open or a close (43_transmit R170, R182; 44_link R190, R191).
`fail k`: it failed, and `k` bytes of a write had gone out. -/
inductive DevAnswer
  | ok
  | fail (k : Nat)
deriving DecidableEq, Repr, Inhabited

/-- The rows of spec/opcode_table.json. The first sixteen are the operations of 30_encoding R78; the rest are the
rows for one stage of TX.STEP, one register of CFG.SET, a token, a frame field or a code. -/
inductive Instr
  | cksInit
  | cksByte (b : Byte)
  | cksRead
  | imgParse (source : Source)
  | frmBuild
  | payLoad (bytes : List Byte)
  | rxBytes (chunk : List Byte)
  | rxTexp
  | rxQto
  | txUpload (r : Bool)
  | txRestart
  | txStep
  | linkOpen
  | linkClose
  | linkDisc
  | cfgSet (idx : Byte) (v : Word)
  | txStepRstLow
  | txStepRstSettle
  | txStepMagic
  | txStepGapM
  | txStepSize
  | txStepGapS
  | txStepPayload
  | txStepCksum
  | txStepRbPulse
  | cfgSetTDown (v : Word)
  | cfgSetTSettle (v : Word)
  | cfgSetTGap (v : Word)
  | cfgSetChunk (v : Word)
  | cfgSetTSample (v : Word)
  | cfgSetTQuiet (v : Word)
  | cfgSetTRestart (v : Word)
  | tokNl
  | tokPfxD
  | tokPfxI
  | tokPfxW
  | tokPfxE
  | frameMagic
  | frameSize
  | frameChecksum
  | sevDefault
  | sevDebug
  | sevInfo
  | sevWarn
  | sevError
  | stageIdle
  | stageRstLow
  | stageRstSettle
  | stageMagic
  | stageGapM
  | stageSize
  | stageGapS
  | stagePayload
  | stageCksum
  | stageRbPulse
  | statusNone
  | statusRun
  | statusOk
  | statusFail
  | errNone
  | errParseError
  | errEmptyImageError
  | errIoError
  | errTransportError
deriving DecidableEq, Repr, Inhabited

/-- How an issued word is to be read: the opcode table's column "format", which alone tells apart rows that have the
same bits (0x33 is TX.STEP and each TX.STEP stage row; 0 is CKS.INIT and four codes). DESIGN CHOICE, log entry 14. -/
inductive Port
  | selector
  | stepStage
  | cfgIndex
  | token
  | frameField
  | severityCode
  | stageCode
  | statusCode
  | errorCode
deriving DecidableEq, Repr, Inhabited

/-- One issued operation: its format and its bytes, the selector first and its operands after it. -/
structure IssueItem where
  port  : Port
  bytes : List Byte
deriving DecidableEq, Repr, Inhabited

/-- Why the decoder rejects an issued item. -/
inductive DecodeError
  /-- no byte at all -/
  | emptyItem
  /-- a selector that 30_encoding R78 leaves unassigned -/
  | unassignedSelector (b : Byte)
  /-- a selector with too few or too many operand bytes -/
  | operandLength (b : Byte)
  /-- the byte that tells `Text` from `Unreadable` is neither 0 nor 1 -/
  | badSourceTag (b : Byte)
  /-- no row of the table for these bytes under this format -/
  | noSuchRow (p : Port)
deriving DecidableEq, Repr, Inhabited

end Sys2Proof
end

