-- ==== Sys2Proof/Decode.lean ====
section
/-! DEFINITION. Byte orders (00_scope R7), the numbers of the code sets (30_encoding section 4), the decoder of issued items
and the encoder beside it, and the reading of the opcode table's words. -/

namespace Sys2Proof

/-! ## Byte orders, 00_scope R7 and 20_memory R43 -/

/-- `le32(v)`: least significant byte first. -/
def le32 (v : Word) : List Byte :=
  [v.extractLsb' 0 8, v.extractLsb' 8 8, v.extractLsb' 16 8, v.extractLsb' 24 8]

/-- `be32(v)`: most significant byte first. -/
def be32 (v : Word) : List Byte :=
  [v.extractLsb' 24 8, v.extractLsb' 16 8, v.extractLsb' 8 8, v.extractLsb' 0 8]

/-- The word whose `le32` is `[b0, b1, b2, b3]`. -/
def ofLe32 (b0 b1 b2 b3 : Byte) : Word :=
  b3 ++ b2 ++ b1 ++ b0

/-! ## The code sets -/

/-- 30_encoding R73. -/
def Severity.code : Severity → BitVec 3
  | .default => 0
  | .debug => 1
  | .info => 2
  | .warn => 3
  | .error => 4

/-- 30_encoding R73: values 5 to 7 are never produced. -/
def Severity.ofCode : Nat → Option Severity
  | 0 => some .default
  | 1 => some .debug
  | 2 => some .info
  | 3 => some .warn
  | 4 => some .error
  | _ => none

/-- 30_encoding R75. -/
def Stage.code : Stage → BitVec 4
  | .idle => 0
  | .rstLow => 1
  | .rstSettle => 2
  | .magic => 3
  | .gapM => 4
  | .size => 5
  | .gapS => 6
  | .payload => 7
  | .cksum => 8
  | .rbPulse => 9

/-- 30_encoding R75: values 10 to 15 are never produced. -/
def Stage.ofCode : Nat → Option Stage
  | 0 => some .idle
  | 1 => some .rstLow
  | 2 => some .rstSettle
  | 3 => some .magic
  | 4 => some .gapM
  | 5 => some .size
  | 6 => some .gapS
  | 7 => some .payload
  | 8 => some .cksum
  | 9 => some .rbPulse
  | _ => none

/-- 30_encoding R76. -/
def Status.code : Status → BitVec 2
  | .none => 0
  | .run => 1
  | .ok => 2
  | .fail => 3

/-- 30_encoding R76. -/
def Status.ofCode : Nat → Option Status
  | 0 => some .none
  | 1 => some .run
  | 2 => some .ok
  | 3 => some .fail
  | _ => Option.none

/-- 60_exceptions R200. -/
def ErrCode.code : ErrCode → BitVec 3
  | .none => 0
  | .parseError => 1
  | .emptyImageError => 2
  | .ioError => 3
  | .transportError => 4

/-- 60_exceptions R200: codes 5 to 7 are never produced. -/
def ErrCode.ofCode : Nat → Option ErrCode
  | 0 => some .none
  | 1 => some .parseError
  | 2 => some .emptyImageError
  | 3 => some .ioError
  | 4 => some .transportError
  | _ => Option.none

/-- The indices of 10_state R29. -/
def CfgReg.index : CfgReg → Byte
  | .tDown => 0
  | .tSettle => 1
  | .tGap => 2
  | .chunk => 3
  | .tSample => 4
  | .tQuiet => 5
  | .tRestart => 6

/-- 44_link R194: indices 0 to 6. -/
def CfgReg.ofIndex : Nat → Option CfgReg
  | 0 => some .tDown
  | 1 => some .tSettle
  | 2 => some .tGap
  | 3 => some .chunk
  | 4 => some .tSample
  | 5 => some .tQuiet
  | 6 => some .tRestart
  | _ => none

/-! ## The inbound tokens, 30_encoding R66 and R67 -/

/-- `NL`. -/
def newline : Byte := 0x0A

/-- `PFX_D`, `[D]`. -/
def prefixD : List Byte := [0x5B, 0x44, 0x5D]

/-- `PFX_I`, `[I]`. -/
def prefixI : List Byte := [0x5B, 0x49, 0x5D]

/-- `PFX_W`, `[W]`. -/
def prefixW : List Byte := [0x5B, 0x57, 0x5D]

/-- `PFX_E`, `[E]`. -/
def prefixE : List Byte := [0x5B, 0x45, 0x5D]

/-! ## The decoder -/

/-- An operation with no operands: any byte after its selector is rejected. -/
def decodeBare (sel : Byte) (i : Instr) : List Byte → Except DecodeError Instr
  | [] => .ok i
  | _ :: _ => .error (.operandLength sel)

/-- The operand of `CKS.BYTE` (40_crc R92), one byte. -/
def decodeCksByte (sel : Byte) : List Byte → Except DecodeError Instr
  | [b] => .ok (.cksByte b)
  | _ => .error (.operandLength sel)

/-- The operand of `IMG.PARSE` (41_frame_build R110): a byte 0 and the text, or a byte 1 for `Unreadable`. -/
def decodeImgParse (sel : Byte) : List Byte → Except DecodeError Instr
  | [] => .error (.operandLength sel)
  | tag :: t =>
    if tag = 0 then .ok (.imgParse (.text t))
    else if tag = 1 then (match t with
      | [] => .ok (.imgParse .unreadable)
      | _ :: _ => .error (.operandLength sel))
    else .error (.badSourceTag tag)

/-- The operands of `CFG.SET` (44_link R194): the index, then the value least significant byte first. -/
def decodeCfgSet (sel : Byte) : List Byte → Except DecodeError Instr
  | [idx, b0, b1, b2, b3] => .ok (.cfgSet idx (ofLe32 b0 b1 b2 b3))
  | _ => .error (.operandLength sel)

/-- The selectors of 30_encoding R78. Every other byte is unassigned. -/
def decodeSelector (sel : Byte) (ops : List Byte) : Except DecodeError Instr :=
  match sel.toNat with
  | 0x00 => decodeBare sel .cksInit ops
  | 0x01 => decodeCksByte sel ops
  | 0x02 => decodeBare sel .cksRead ops
  | 0x10 => decodeImgParse sel ops
  | 0x11 => decodeBare sel .frmBuild ops
  | 0x12 => .ok (.payLoad ops)
  | 0x20 => .ok (.rxBytes ops)
  | 0x21 => decodeBare sel .rxTexp ops
  | 0x22 => decodeBare sel .rxQto ops
  | 0x30 => decodeBare sel (.txUpload false) ops
  | 0x31 => decodeBare sel (.txUpload true) ops
  | 0x32 => decodeBare sel .txRestart ops
  | 0x33 => decodeBare sel .txStep ops
  | 0x40 => decodeBare sel .linkOpen ops
  | 0x41 => decodeBare sel .linkClose ops
  | 0x42 => decodeBare sel .linkDisc ops
  | 0x50 => decodeCfgSet sel ops
  | _ => .error (.unassignedSelector sel)

/-- The row TX.STEP.<stage>. There is no row for `IDLE`. -/
def stepRow : Stage → Option Instr
  | .idle => none
  | .rstLow => some .txStepRstLow
  | .rstSettle => some .txStepRstSettle
  | .magic => some .txStepMagic
  | .gapM => some .txStepGapM
  | .size => some .txStepSize
  | .gapS => some .txStepGapS
  | .payload => some .txStepPayload
  | .cksum => some .txStepCksum
  | .rbPulse => some .txStepRbPulse

/-- The row CFG.SET.<register>. -/
def cfgRow (v : Word) : CfgReg → Instr
  | .tDown => .cfgSetTDown v
  | .tSettle => .cfgSetTSettle v
  | .tGap => .cfgSetTGap v
  | .chunk => .cfgSetChunk v
  | .tSample => .cfgSetTSample v
  | .tQuiet => .cfgSetTQuiet v
  | .tRestart => .cfgSetTRestart v

/-- Format "selector8+stage4": the word 0x33 with the stage code beside it. -/
def decodeStepStage : List Byte → Except DecodeError Instr
  | [sel, st] =>
    if sel = 0x33 then (match (Stage.ofCode st.toNat).bind stepRow with
      | some i => .ok i
      | none => .error (.noSuchRow .stepStage))
    else .error (.noSuchRow .stepStage)
  | _ => .error (.noSuchRow .stepStage)

/-- Format "selector8+idx": the word 0x50 with the register's index beside it, then the value. -/
def decodeCfgIndex : List Byte → Except DecodeError Instr
  | [sel, idx, b0, b1, b2, b3] =>
    if sel = 0x50 then (match CfgReg.ofIndex idx.toNat with
      | some r => .ok (cfgRow (ofLe32 b0 b1 b2 b3) r)
      | none => .error (.noSuchRow .cfgIndex))
    else .error (.noSuchRow .cfgIndex)
  | _ => .error (.noSuchRow .cfgIndex)

/-- Formats "token8" and "token24", the bytes in their order on the wire. -/
def decodeToken (bs : List Byte) : Except DecodeError Instr :=
  if bs = [newline] then .ok .tokNl
  else if bs = prefixD then .ok .tokPfxD
  else if bs = prefixI then .ok .tokPfxI
  else if bs = prefixW then .ok .tokPfxW
  else if bs = prefixE then .ok .tokPfxE
  else .error (.noSuchRow .token)

/-- Format "frame-field": the field's place in 30_encoding R60's list (0 magic, 1 size, 3 checksum), and for the magic
the four bytes the table fixes. -/
def decodeFrameField (bs : List Byte) : Except DecodeError Instr :=
  if bs = [0, 0xDE, 0xAD, 0xBE, 0xEF] then .ok .frameMagic
  else if bs = [1] then .ok .frameSize
  else if bs = [3] then .ok .frameChecksum
  else .error (.noSuchRow .frameField)

/-- The row SEV.<severity>. -/
def severityRow : Severity → Instr
  | .default => .sevDefault
  | .debug => .sevDebug
  | .info => .sevInfo
  | .warn => .sevWarn
  | .error => .sevError

/-- The row STAGE.<stage>. -/
def stageRow : Stage → Instr
  | .idle => .stageIdle
  | .rstLow => .stageRstLow
  | .rstSettle => .stageRstSettle
  | .magic => .stageMagic
  | .gapM => .stageGapM
  | .size => .stageSize
  | .gapS => .stageGapS
  | .payload => .stagePayload
  | .cksum => .stageCksum
  | .rbPulse => .stageRbPulse

/-- The row STATUS.<status>. -/
def statusRow : Status → Instr
  | .none => .statusNone
  | .run => .statusRun
  | .ok => .statusOk
  | .fail => .statusFail

/-- The row ERR.<error>. -/
def errorRow : ErrCode → Instr
  | .none => .errNone
  | .parseError => .errParseError
  | .emptyImageError => .errEmptyImageError
  | .ioError => .errIoError
  | .transportError => .errTransportError

/-- A one-byte code: the byte read by `find`, or no row. -/
def decodeCode (p : Port) (find : Nat → Option Instr) : List Byte → Except DecodeError Instr
  | [b] => (match find b.toNat with
      | some i => .ok i
      | none => .error (.noSuchRow p))
  | _ => .error (.noSuchRow p)

/-- The decoder: total on every item, rejecting by name. -/
def decode (it : IssueItem) : Except DecodeError Instr :=
  match it.port with
  | .selector => (match it.bytes with
      | [] => .error .emptyItem
      | sel :: ops => decodeSelector sel ops)
  | .stepStage => decodeStepStage it.bytes
  | .cfgIndex => decodeCfgIndex it.bytes
  | .token => decodeToken it.bytes
  | .frameField => decodeFrameField it.bytes
  | .severityCode => decodeCode .severityCode (fun n => (Severity.ofCode n).map severityRow) it.bytes
  | .stageCode => decodeCode .stageCode (fun n => (Stage.ofCode n).map stageRow) it.bytes
  | .statusCode => decodeCode .statusCode (fun n => (Status.ofCode n).map statusRow) it.bytes
  | .errorCode => decodeCode .errorCode (fun n => (ErrCode.ofCode n).map errorRow) it.bytes

/-! ## The encoder -/

/-- The item of an operation given by its selector and operand bytes. -/
def selItem (sel : Byte) (ops : List Byte) : IssueItem := ⟨.selector, sel :: ops⟩

/-- The item of a row TX.STEP.<stage>. -/
def stepItem (st : Stage) : IssueItem := ⟨.stepStage, [0x33, st.code.setWidth 8]⟩

/-- The item of a row CFG.SET.<register>. -/
def cfgItem (r : CfgReg) (v : Word) : IssueItem := ⟨.cfgIndex, 0x50 :: r.index :: le32 v⟩

/-- The item of an instruction, from the same tables of the spec as the decoder. -/
def encode : Instr → IssueItem
  | .cksInit => selItem 0x00 []
  | .cksByte b => selItem 0x01 [b]
  | .cksRead => selItem 0x02 []
  | .imgParse .unreadable => selItem 0x10 [1]
  | .imgParse (.text t) => selItem 0x10 (0 :: t)
  | .frmBuild => selItem 0x11 []
  | .payLoad bytes => selItem 0x12 bytes
  | .rxBytes chunk => selItem 0x20 chunk
  | .rxTexp => selItem 0x21 []
  | .rxQto => selItem 0x22 []
  | .txUpload false => selItem 0x30 []
  | .txUpload true => selItem 0x31 []
  | .txRestart => selItem 0x32 []
  | .txStep => selItem 0x33 []
  | .linkOpen => selItem 0x40 []
  | .linkClose => selItem 0x41 []
  | .linkDisc => selItem 0x42 []
  | .cfgSet idx v => selItem 0x50 (idx :: le32 v)
  | .txStepRstLow => stepItem .rstLow
  | .txStepRstSettle => stepItem .rstSettle
  | .txStepMagic => stepItem .magic
  | .txStepGapM => stepItem .gapM
  | .txStepSize => stepItem .size
  | .txStepGapS => stepItem .gapS
  | .txStepPayload => stepItem .payload
  | .txStepCksum => stepItem .cksum
  | .txStepRbPulse => stepItem .rbPulse
  | .cfgSetTDown v => cfgItem .tDown v
  | .cfgSetTSettle v => cfgItem .tSettle v
  | .cfgSetTGap v => cfgItem .tGap v
  | .cfgSetChunk v => cfgItem .chunk v
  | .cfgSetTSample v => cfgItem .tSample v
  | .cfgSetTQuiet v => cfgItem .tQuiet v
  | .cfgSetTRestart v => cfgItem .tRestart v
  | .tokNl => ⟨.token, [newline]⟩
  | .tokPfxD => ⟨.token, prefixD⟩
  | .tokPfxI => ⟨.token, prefixI⟩
  | .tokPfxW => ⟨.token, prefixW⟩
  | .tokPfxE => ⟨.token, prefixE⟩
  | .frameMagic => ⟨.frameField, [0, 0xDE, 0xAD, 0xBE, 0xEF]⟩
  | .frameSize => ⟨.frameField, [1]⟩
  | .frameChecksum => ⟨.frameField, [3]⟩
  | .sevDefault => ⟨.severityCode, [0]⟩
  | .sevDebug => ⟨.severityCode, [1]⟩
  | .sevInfo => ⟨.severityCode, [2]⟩
  | .sevWarn => ⟨.severityCode, [3]⟩
  | .sevError => ⟨.severityCode, [4]⟩
  | .stageIdle => ⟨.stageCode, [0]⟩
  | .stageRstLow => ⟨.stageCode, [1]⟩
  | .stageRstSettle => ⟨.stageCode, [2]⟩
  | .stageMagic => ⟨.stageCode, [3]⟩
  | .stageGapM => ⟨.stageCode, [4]⟩
  | .stageSize => ⟨.stageCode, [5]⟩
  | .stageGapS => ⟨.stageCode, [6]⟩
  | .stagePayload => ⟨.stageCode, [7]⟩
  | .stageCksum => ⟨.stageCode, [8]⟩
  | .stageRbPulse => ⟨.stageCode, [9]⟩
  | .statusNone => ⟨.statusCode, [0]⟩
  | .statusRun => ⟨.statusCode, [1]⟩
  | .statusOk => ⟨.statusCode, [2]⟩
  | .statusFail => ⟨.statusCode, [3]⟩
  | .errNone => ⟨.errorCode, [0]⟩
  | .errParseError => ⟨.errorCode, [1]⟩
  | .errEmptyImageError => ⟨.errorCode, [2]⟩
  | .errIoError => ⟨.errorCode, [3]⟩
  | .errTransportError => ⟨.errorCode, [4]⟩

/-! ## The agents, 30_encoding R78 -/

/-- The agent that issues the operation (column "issued by" of 30_encoding R78). A stage row is TX.STEP's, a register
row CFG.SET's, a token RX.BYTES's; a frame field or a code is asked for by HOST. The meaning never depends on it
(60_exceptions R213). -/
def Instr.agent : Instr → Agent
  | .rxBytes _ | .tokNl | .tokPfxD | .tokPfxI | .tokPfxW | .tokPfxE => .rxc
  | .rxTexp | .rxQto => .tmr
  | .txStep | .txStepRstLow | .txStepRstSettle | .txStepMagic | .txStepGapM | .txStepSize | .txStepGapS
  | .txStepPayload | .txStepCksum | .txStepRbPulse => .upl
  | .linkDisc => .dev
  | .cksInit | .cksByte _ | .cksRead | .imgParse _ | .frmBuild | .payLoad _ | .txUpload _ | .txRestart | .linkOpen
  | .linkClose | .cfgSet _ _ | .cfgSetTDown _ | .cfgSetTSettle _ | .cfgSetTGap _ | .cfgSetChunk _ | .cfgSetTSample _
  | .cfgSetTQuiet _ | .cfgSetTRestart _ | .frameMagic | .frameSize | .frameChecksum | .sevDefault | .sevDebug
  | .sevInfo | .sevWarn | .sevError | .stageIdle | .stageRstLow | .stageRstSettle | .stageMagic | .stageGapM
  | .stageSize | .stageGapS | .stagePayload | .stageCksum | .stageRbPulse | .statusNone | .statusRun | .statusOk
  | .statusFail | .errNone | .errParseError | .errEmptyImageError | .errIoError | .errTransportError => .host

/-! ## The words of spec/opcode_table.json -/

/-- How many operand bytes of zeros follow a selector that has operands of fixed length. -/
def operandBytes (sel : Nat) : Nat :=
  match sel with
  | 0x01 => 1
  | 0x10 => 1
  | 0x50 => 5
  | _ => 0

/-- Whether 30_encoding R78 assigns the selector. -/
def assigned (sel : Nat) : Bool :=
  [0x00, 0x01, 0x02, 0x10, 0x11, 0x12, 0x20, 0x21, 0x22, 0x30, 0x31, 0x32, 0x33, 0x40, 0x41, 0x42, 0x50].contains sel

/-- The item of a table word. The table's rows share words across its formats, so the format is chosen here: one byte is
a selector if R78 assigns it, else the newline token or a stage code; three bytes are a prefix token, most significant byte
first as those rows' own "byte_order" says; four are the frame's magic or, the table fixing no bit of it, the size field,
whose bits are the register's and no operand. Log entry 18. -/
def itemOfTableWord (nbits w : Nat) : IssueItem :=
  if nbits ≤ 8 then
    if assigned w then ⟨.selector, BitVec.ofNat 8 w :: List.replicate (operandBytes w) 0⟩
    else if w = 0x0A then ⟨.token, [newline]⟩
    else if w ≤ 9 then ⟨.stageCode, [BitVec.ofNat 8 w]⟩
    else ⟨.selector, [BitVec.ofNat 8 w]⟩
  else if nbits = 24 then
    ⟨.token, [BitVec.ofNat 8 (w / 65536), BitVec.ofNat 8 (w / 256), BitVec.ofNat 8 w]⟩
  else if nbits = 32 then
    if w = 0xDEADBEEF then ⟨.frameField, [0, 0xDE, 0xAD, 0xBE, 0xEF]⟩ else ⟨.frameField, [1]⟩
  else ⟨.selector, []⟩

/-- The instruction the decoder reads from a word of the opcode table. -/
def decodeTableWord (nbits w : Nat) : Option Instr :=
  match decode (itemOfTableWord nbits w) with
  | .ok i => some i
  | .error _ => none

end Sys2Proof
end

