-- ==== Sys2Proof/Config.lean ====
section
/-! DEFINITION. What the spec fixes as constants, what it leaves OPEN as parameters (00_scope R6), and the draws: values no
rule fixes, opaque here so that no proof can lean on them. -/

namespace Sys2Proof

/-- `MAGIC`, hardwired (10_state R15). -/
def Config.magic : Word := 0xDEADBEEF

/-- `CRC_INIT`, the initial accumulator (00_scope R6, 40_crc R91). -/
def Config.crcInit : Word := 0xFFFFFFFF

/-- `POLY`, the polynomial as catalogued (00_scope R6). No operation reads it: the table constant is `POLY_R`. -/
def Config.poly : Word := 0x04C11DB7

/-- `POLY_R` under reading A, the spec's default (00_scope R6, 90_conflicts C1). -/
def Config.polyRA : Word := 0x04C11DB7

/-- `POLY_R` under reading B, the bit reversal of `POLY` (00_scope R6, 90_conflicts C1). -/
def Config.polyRB : Word := 0xEDB88320

/-- The largest `PAY_MAX` the spec allows (00_scope R6). -/
def Config.payMaxLimit : Nat := 0xFFFFFFFC

/-- The OPEN parameters of the model (00_scope R6, 92 section 1) that are not run-time registers. They ride in State
because `step` takes nothing else; no step changes them. Log entry 1. -/
structure Params where
  /-- the constant of the table recurrence, 40_crc R90; any `u32` -/
  polyR : Word
  /-- capacity of `PAY` in bytes, 41_frame_build R111 -/
  payMax : Nat
  /-- capacity of `PEND` in bytes, 20_memory R42; `none` is unbounded -/
  pendMax : Option Nat
  /-- electrical sense of `ACTIVE` on line B, 10_state R28 -/
  lineBActive : Voltage
deriving DecidableEq, Repr, Inhabited

/-- The constraints of 92 section 1 on the parameters. -/
abbrev Params.wf (p : Params) : Prop :=
  1 ≤ p.payMax ∧ p.payMax ≤ Config.payMaxLimit ∧ ∀ n ∈ p.pendMax, 1 ≤ n

/-- The parameters the reset state carries. `POLY_R` and `PEND_MAX` are the spec's defaults (00_scope R6). `PAY_MAX` and
`LINE_B_ACTIVE` have no default: DESIGN CHOICE, unsafe, log entries 3 and 4. -/
def Config.resetParams : Params where
  polyR := Config.polyRA
  payMax := Config.payMaxLimit
  pendMax := none
  lineBActive := .high

/-- The n-th draw of DEV's answer when no answer stands in the queue (43_transmit R170). No body: log entry 11. -/
opaque Config.devAnswer : Nat → DevAnswer

/-- The n-th draw of a message's timestamp (42_reassembler R139). No body: log entry 9. -/
opaque Config.timestamp : Nat → Nat

/-- The n-th draw of the throughput estimate (43_transmit R173). No body: log entry 10. -/
opaque Config.throughput : Nat → Nat

/-- The n-th draw of the remaining time (43_transmit R173). No body: log entry 10. -/
opaque Config.remainingTime : Nat → Nat

/-- The n-th draw of the checksum field of a frame that is not defined (41_frame_build R113, 93 U18). No body: log
entry 16. -/
opaque Config.undefinedChecksum : Nat → Word

end Sys2Proof
end

