-- ==== Sys2Proof/WellFormed.lean ====
section
/-! DEFINITION. Which terms of Instr are operations with legal operands: `CFG.SET` names one of the seven registers
(44_link R194) and never a chunk size of 0 (10_state R29). Every other operand of its type is legal. -/

namespace Sys2Proof

/-- Operands as 30_encoding R78 and 10_state R29 admit them. An ill-formed term still has a meaning: it is refused. -/
def WellFormed : Instr → Bool
  | .cfgSet idx v => decide (idx.toNat ≤ 6) && (decide (idx.toNat ≠ 3) || decide (v ≠ 0))
  | .cfgSetChunk v => decide (v ≠ 0)
  | .cksInit | .cksByte _ | .cksRead | .imgParse _ | .frmBuild | .payLoad _ | .rxBytes _ | .rxTexp | .rxQto
  | .txUpload _ | .txRestart | .txStep | .linkOpen | .linkClose | .linkDisc | .txStepRstLow | .txStepRstSettle
  | .txStepMagic | .txStepGapM | .txStepSize | .txStepGapS | .txStepPayload | .txStepCksum | .txStepRbPulse
  | .cfgSetTDown _ | .cfgSetTSettle _ | .cfgSetTGap _ | .cfgSetTSample _ | .cfgSetTQuiet _ | .cfgSetTRestart _
  | .tokNl | .tokPfxD | .tokPfxI | .tokPfxW | .tokPfxE | .frameMagic | .frameSize | .frameChecksum | .sevDefault
  | .sevDebug | .sevInfo | .sevWarn | .sevError | .stageIdle | .stageRstLow | .stageRstSettle | .stageMagic
  | .stageGapM | .stageSize | .stageGapS | .stagePayload | .stageCksum | .stageRbPulse | .statusNone
  | .statusRun | .statusOk | .statusFail | .errNone | .errParseError | .errEmptyImageError | .errIoError
  | .errTransportError => true

end Sys2Proof
end

