-- ==== Sys2Proof/Machine/State.lean ====
section
/-! DEFINITION. The state of one SBL instance (10_state), why a step can stop, and the state after reset (10_state R35). -/

namespace Sys2Proof.Machine

/-- The payload store `PAY` (20_memory R40, R41): the bytes that have been written, by address. An address that is not
listed has no value (10_state R35: every byte is unspecified at reset). Log entry 8. -/
abbrev Memory := List Host.Cell

/-- The canonical form: addresses strictly rising. No entry can equal what an unlisted address reads as, since an unlisted
address has no value. -/
abbrev Memory.wf (m : Memory) : Prop := m.Pairwise (fun c d => c.1 < d.1)

/-- A `LogMessage` of 10_state R24. -/
structure Message where
  severity  : Severity
  text      : List Byte
  timestamp : Nat
deriving DecidableEq, Repr, Inhabited

/-- A wire event, 10_state R27. `wait` names the duration register and records the duration it held. -/
inductive WireEvent
  | line (x : Line) (level : Level)
  | wait (d : CfgReg) (duration : Word)
  | write (bytes : List Byte)
deriving DecidableEq, Repr, Inhabited

/-- The errors of 60_exceptions R200 with what each records: the line of the source counted from 1, the stage. -/
inductive SblError
  | parseError (line : Nat)
  | emptyImageError
  | ioError
  | transportError (stage : Stage)
deriving DecidableEq, Repr, Inhabited

/-- What an operation hands its caller: nothing, a word (40_crc R93), bytes, or the error it raised (60_exceptions
R211: "to their caller synchronously (as a failure result)"). The model's own field. Log entry 19. -/
inductive Report
  | done
  | word (v : Word)
  | bytes (bs : List Byte)
  | raised (e : SblError)
deriving DecidableEq, Repr, Inhabited

/-- Why a step faults. Both are safe: the spec says no rule reads such a byte (20_memory R41), and no run from reset
does. -/
inductive Fault
  /-- Raised by `FRM.BUILD` and the `PAYLOAD` stage: a byte of `PAY` that nothing has written. Safe. -/
  | payUnwritten
  /-- Raised by `FRM.BUILD` and the `PAYLOAD` stage: an address of `PAY` at or above `PAY_MAX`. Safe. -/
  | payNoSuchAddress
deriving DecidableEq, Repr, Inhabited

/-- Why a step is refused (00_scope R8: "the operation has no step in this state"). Each is safe: the machine stops where
the spec gives no step. -/
inductive Refusal
  /-- Raised by `exec` for an instruction that has no meaning yet. Safe. -/
  | notModelled (mnemonic : String)
  /-- Raised by `step`: no operation has been issued. Safe. -/
  | noOperation
  /-- Raised by `step`: the issued item is no operation of 30_encoding R78. Safe. -/
  | undecodable (e : DecodeError)
  /-- Raised by `IMG.PARSE`, `PAY.LOAD`, `FRM.BUILD` (41_frame_build R118), `TX.UPLOAD` (43_transmit R160), `TX.RESTART`
  (R176) and `CFG.SET` (44_link R194): `tx.stage` is not `IDLE`. Safe. -/
  | sequencerBusy
  /-- Raised by `IMG.PARSE`, `PAY.LOAD`: the payload is longer than `PAY_MAX` (41_frame_build R111). Safe. -/
  | payloadTooLong
  /-- Raised by `TX.UPLOAD`: `frm.valid` is 0 (43_transmit R160). Safe. -/
  | noFrame
  /-- Raised by `TX.STEP`: `tx.stage` is `IDLE` (43_transmit section 3). Safe. -/
  | sequencerIdle
  /-- Raised by a row TX.STEP.<stage> in another stage (opcode table: what TX.STEP does when `tx.stage` is that stage).
  Safe. -/
  | otherStage (current : Stage)
  /-- Raised by `RX.BYTES` and the tokens (44_link R193), `LINK.CLOSE` (R191), `LINK.DISC` (R192): the link is closed.
  Safe. -/
  | linkClosed
  /-- Raised by `LINK.OPEN`: the link is open (44_link R190). Safe. -/
  | linkAlreadyOpen
  /-- Raised by `RX.BYTES` and the tokens: the chunk does not fit `PEND_MAX` (20_memory R42). Safe. -/
  | pendingFull
  /-- Raised by `RX.TEXP`: the timer is not `ARMED` (42_reassembler R135). Safe. -/
  | noDeadline
  /-- Raised by `RX.QTO`: `rx.qto_req` is 0 (42_reassembler R136). Safe. -/
  | noTimeoutRequest
  /-- Raised by `CFG.SET`: the index is above 6 (44_link R194). Safe. -/
  | noSuchRegister
  /-- Raised by `CFG.SET`: a chunk size of 0 (44_link R194). Safe. -/
  | zeroChunk
deriving DecidableEq, Repr, Inhabited

/-- The state of one SBL instance: the registers of 10_state R11 to R33 and the stores of 20_memory R40, then the model's
own fields (`params`, `report`, `issue`, `devAnswers`, `draws`). -/
structure State where
  /-- `crc`, R11 -/
  crc : Word
  /-- `frm.size`, R12 -/
  frmSize : Word
  /-- `frm.cksum`, R13 -/
  frmCksum : Word
  /-- `frm.valid`, R14 -/
  frmValid : Bool
  /-- `PAY`, 20_memory R41 -/
  pay : Memory
  /-- `tx.stage`, R16 -/
  txStage : Stage
  /-- `tx.sent`, R17 -/
  txSent : Word
  /-- `tx.rbu`, R18 -/
  txRbu : Bool
  /-- `tx.status`, R19 -/
  txStatus : Status
  /-- `tx.progress`, R20 -/
  txProgress : BitVec 7
  /-- `tx.fail_stage`, R21 -/
  txFailStage : Stage
  /-- `tx.err`, R21 -/
  txErr : ErrCode
  /-- `tx.thr`, R22 -/
  txThr : Nat
  /-- `tx.eta`, R22 -/
  txEta : Nat
  /-- `msgs`, R24 -/
  msgs : List Message
  /-- `wire`, R27 -/
  wire : List WireEvent
  /-- `line_a`, R28 -/
  lineA : Level
  /-- `line_b`, R28 -/
  lineB : Level
  /-- `cfg.t_down`, R29 index 0 -/
  cfgTDown : Word
  /-- `cfg.t_settle`, R29 index 1 -/
  cfgTSettle : Word
  /-- `cfg.t_gap`, R29 index 2 -/
  cfgTGap : Word
  /-- `cfg.chunk`, R29 index 3 -/
  cfgChunk : Word
  /-- `cfg.t_sample`, R29 index 4 -/
  cfgTSample : Word
  /-- `cfg.t_quiet`, R29 index 5 -/
  cfgTQuiet : Word
  /-- `cfg.t_restart`, R29 index 6 -/
  cfgTRestart : Word
  /-- `link.open`, R30 -/
  linkOpen : Bool
  /-- `rx.pending`, R31, oldest byte first -/
  rxPending : List Byte
  /-- `rx.timer`, R32 -/
  rxTimer : Timer
  /-- `rx.qto_req`, R33 -/
  rxQtoReq : Bool
  /-- the OPEN parameters (00_scope R6); no step writes them -/
  params : Params
  /-- what the last operation handed its caller -/
  report : Report
  /-- the operations issued and not yet taken, next first -/
  issue : List IssueItem
  /-- the answers of DEV that stand ready, next first -/
  devAnswers : List DevAnswer
  /-- how many draws have been made from the opaque sources of Config -/
  draws : Nat
deriving DecidableEq, Repr, Inhabited

/-- The three outcomes of a step over this state. -/
abbrev Result := Host.Outcome State Fault Refusal

/-- The state after reset (10_state R35) for given parameters and given values of the two registers R35 leaves to
parameters. `frm.cksum`, `tx.thr` and `tx.eta`, unspecified in R35, are 0: DESIGN CHOICE, unsafe, log entries 6 and 7. -/
def State.resetWith (p : Params) (tQuiet tRestart : Word) : State where
  crc := Config.crcInit
  frmSize := 0
  frmCksum := 0
  frmValid := false
  pay := []
  txStage := .idle
  txSent := 0
  txRbu := false
  txStatus := .none
  txProgress := 0
  txFailStage := .idle
  txErr := .none
  txThr := 0
  txEta := 0
  msgs := []
  wire := []
  lineA := .inactive
  lineB := .inactive
  cfgTDown := 100
  cfgTSettle := 100
  cfgTGap := 10
  cfgChunk := 1024
  cfgTSample := 250
  cfgTQuiet := tQuiet
  cfgTRestart := tRestart
  linkOpen := false
  rxPending := []
  rxTimer := .idle
  rxQtoReq := false
  params := p
  report := .done
  issue := []
  devAnswers := []
  draws := 0

/-- The machine right after reset (70_reset_and_hazards R230). `cfg.t_quiet` and `cfg.t_restart` have no value in the spec
and are 0 here: DESIGN CHOICE, unsafe, log entry 5. -/
def State.reset : State := State.resetWith Config.resetParams 0 0

end Sys2Proof.Machine
end

