-- ==== Sys2Proof/Machine/Ops.lean ====
section
/-! DEFINITION. The named operations over registers, stores and traces that the meanings share: reading and writing `PAY`,
DEV's answers, the primitives of the transmit path, messages, and raising an error. -/

namespace Sys2Proof.Machine

/-! ## The payload store, 20_memory R41 -/

/-- The byte at an address, if one has been written there. -/
def Memory.read (m : Memory) (a : Nat) : Option Byte := m.lookup a

/-- The cells of a run of bytes from address `a` up. -/
def Memory.run (a : Nat) : List Byte → Memory
  | [] => []
  | b :: bs => (a, b) :: Memory.run (a + 1) bs

/-- `MemWrite(PAY, a, len(bs), bs)` of 00_scope R8: ascending addresses. -/
def Memory.writeRun (m : Memory) (a : Nat) (bs : List Byte) : Memory :=
  m.filter (fun c => decide (c.1 < a)) ++ Memory.run a bs ++ m.filter (fun c => decide (a + bs.length ≤ c.1))

/-- `MemRead(PAY, a, n)` of 00_scope R8: the `n` bytes from `a` up, if every one has been written. -/
def Memory.readRun (m : Memory) (a n : Nat) : Option (List Byte) :=
  let cells := m.filter (fun c => decide (a ≤ c.1) && decide (c.1 < a + n))
  if cells.length = n then some (cells.map Prod.snd) else none

/-- A read of `PAY` by an operation: beyond `PAY_MAX` there is no address, and a byte nothing has written has no value. -/
def State.payRead (s : State) (a n : Nat) : Except Fault (List Byte) :=
  if s.params.payMax < a + n then .error .payNoSuchAddress
  else match s.pay.readRun a n with
    | some bs => .ok bs
    | none => .error .payUnwritten

/-! ## What an operation hands its caller -/

/-- Set the report of the operation. -/
def State.reply (s : State) (r : Report) : State := { s with report := r }

/-- Raise an error: it is reported to the caller and the operation ends, the machine going on (60_exceptions R211). What
the error writes to `tx.err`, `tx.status` and `tx.stage` is each operation's own. Nothing is saved and there is nothing to
return from (R212). -/
def raise (e : SblError) (s : State) : Result := .next (s.reply (.raised e))

/-- An operation that completes with no result. -/
def finish (s : State) : Result := .next (s.reply .done)

/-! ## DEV's answers -/

/-- The answer DEV gives to the next question: the first that stands ready, else a draw nothing constrains. -/
def State.answer (s : State) : DevAnswer := s.devAnswers.headD (Config.devAnswer s.draws)

/-- The state once that answer has been taken. -/
def State.answered (s : State) : State :=
  { s with
    devAnswers := s.devAnswers.tail
    draws := if s.devAnswers.isEmpty then s.draws + 1 else s.draws }

/-! ## The primitives of the transmit path -/

/-- Append an event to the wire trace (00_scope R8). -/
def State.push (s : State) (e : WireEvent) : State := { s with wire := s.wire ++ [e] }

/-- The duration register's content, 10_state R29. -/
def State.cfg (s : State) : CfgReg → Word
  | .tDown => s.cfgTDown
  | .tSettle => s.cfgTSettle
  | .tGap => s.cfgTGap
  | .chunk => s.cfgChunk
  | .tSample => s.cfgTSample
  | .tQuiet => s.cfgTQuiet
  | .tRestart => s.cfgTRestart

/-- `DoWait(d)`, 43_transmit R177. -/
def State.doWait (s : State) (d : CfgReg) : State := s.push (.wait d (s.cfg d))

/-- What of a write goes out when it fails after `k` bytes, 43_transmit R170: nothing when `k` is 0, at most all. -/
def State.pushFront (s : State) (bytes : List Byte) (k : Nat) : State :=
  if bytes.take k = [] then s else s.push (.write (bytes.take k))

/-- `ChanWrite(bytes)`, 43_transmit R170: whether the write succeeded, and the state after it. On a closed link it
fails, nothing goes out and DEV is not asked. -/
def State.chanWrite (s : State) (bytes : List Byte) : Bool × State :=
  if s.linkOpen then
    match s.answer with
    | .ok => (true, s.answered.push (.write bytes))
    | .fail k => (false, s.answered.pushFront bytes k)
  else (false, s)

/-- Set a control line's level. -/
def State.setLine (s : State) (x : Line) (level : Level) : State :=
  match x with
  | .a => { s with lineA := level }
  | .b => { s with lineB := level }

/-- `LineSet(X, level)`, 43_transmit R182: whether it succeeded, and the state after it. -/
def State.lineSet (s : State) (x : Line) (level : Level) : Bool × State :=
  if s.linkOpen then
    match s.answer with
    | .ok => (true, (s.answered.setLine x level).push (.line x level))
    | .fail _ => (false, s.answered)
  else (false, s)

/-- The voltage on line A: `ACTIVE` is logical low (00_scope R6, 10_state R28), `INACTIVE` the other level. DEDUCED, log
entry 27. -/
def State.lineAVoltage (s : State) : Voltage :=
  match s.lineA with
  | .active => .low
  | .inactive => .high

/-- The voltage on line B: `ACTIVE` is the parameter LINE_B_ACTIVE (00_scope R6, 10_state R28), `INACTIVE` the other level.
DEDUCED, log entry 27. -/
def State.lineBVoltage (s : State) : Voltage :=
  match s.lineB, s.params.lineBActive with
  | .active, v => v
  | .inactive, .low => .high
  | .inactive, .high => .low

/-- `fail(S)`, 43_transmit R171. The lines, `tx.sent` and `tx.progress` keep their values. -/
def failAt (stage : Stage) (s : State) : Result :=
  match stage with
  | .rbPulse => raise (.transportError .rbPulse) { s with txErr := .transportError, txStage := .idle }
  | .idle | .rstLow | .rstSettle | .magic | .gapM | .size | .gapS | .payload | .cksum =>
    raise (.transportError stage)
      { s with
        txStatus := .fail
        txFailStage := stage
        txErr := .transportError
        txStage := .idle
        frmValid := false }

/-! ## Discarding what the receive path holds -/

/-- What `LINK.CLOSE` and `LINK.DISC` share (44_link R191, R192): the link closes, the pending fragment is discarded and
not emitted, the timer is cancelled and a waiting timeout withdrawn. -/
def State.hangUp (s : State) : State :=
  { s with linkOpen := false, rxPending := [], rxTimer := .idle, rxQtoReq := false }

/-! ## Taking an issued operation -/

/-- The next issued operation, decoded, and the state with it taken from the queue. -/
def State.fetch (s : State) : Except Refusal (Instr × State) :=
  match s.issue with
  | [] => .error .noOperation
  | it :: rest => (match decode it with
      | .ok i => .ok (i, { s with issue := rest })
      | .error e => .error (.undecodable e))

end Sys2Proof.Machine
end

