-- ==== Sys2Proof/Machine/CodeRows.lean ====
section
/-! DEFINITION. The twenty-four code rows of the opcode table. A code is no operation of 30_encoding R78 but a number that
registers and messages carry, "given so that a model and a test bench can name them". Its step hands the caller that number
and changes no register of the spec. Log entry 17. -/

namespace Sys2Proof.Machine

/-- Hand the caller the number of a code. -/
def reportCode (n : Word) (s : State) : Result := .next (s.reply (.word n))

/-- SEV.Default, 30_encoding R73. -/
def execSevDefault (s : State) : Result := reportCode (Severity.default.code.setWidth 32) s

/-- SEV.Debug, 30_encoding R73. -/
def execSevDebug (s : State) : Result := reportCode ((Severity.code .debug).setWidth 32) s

/-- SEV.Info, 30_encoding R73. -/
def execSevInfo (s : State) : Result := reportCode (Severity.info.code.setWidth 32) s

/-- SEV.Warn, 30_encoding R73. -/
def execSevWarn (s : State) : Result := reportCode (Severity.warn.code.setWidth 32) s

/-- SEV.Error, 30_encoding R73. -/
def execSevError (s : State) : Result := reportCode (Severity.error.code.setWidth 32) s

/-- STAGE.IDLE, 30_encoding R75. -/
def execStageIdle (s : State) : Result := reportCode (Stage.idle.code.setWidth 32) s

/-- STAGE.RST_LOW, 30_encoding R75. -/
def execStageRstLow (s : State) : Result := reportCode (Stage.rstLow.code.setWidth 32) s

/-- STAGE.RST_SETTLE, 30_encoding R75. -/
def execStageRstSettle (s : State) : Result := reportCode (Stage.rstSettle.code.setWidth 32) s

/-- STAGE.MAGIC, 30_encoding R75. -/
def execStageMagic (s : State) : Result := reportCode (Stage.magic.code.setWidth 32) s

/-- STAGE.GAP_M, 30_encoding R75. -/
def execStageGapM (s : State) : Result := reportCode (Stage.gapM.code.setWidth 32) s

/-- STAGE.SIZE, 30_encoding R75. -/
def execStageSize (s : State) : Result := reportCode (Stage.size.code.setWidth 32) s

/-- STAGE.GAP_S, 30_encoding R75. -/
def execStageGapS (s : State) : Result := reportCode (Stage.gapS.code.setWidth 32) s

/-- STAGE.PAYLOAD, 30_encoding R75. -/
def execStagePayload (s : State) : Result := reportCode (Stage.payload.code.setWidth 32) s

/-- STAGE.CKSUM, 30_encoding R75. -/
def execStageCksum (s : State) : Result := reportCode (Stage.cksum.code.setWidth 32) s

/-- STAGE.RB_PULSE, 30_encoding R75. -/
def execStageRbPulse (s : State) : Result := reportCode (Stage.rbPulse.code.setWidth 32) s

/-- STATUS.NONE, 30_encoding R76. -/
def execStatusNone (s : State) : Result := reportCode (Status.none.code.setWidth 32) s

/-- STATUS.RUN, 30_encoding R76. -/
def execStatusRun (s : State) : Result := reportCode (Status.run.code.setWidth 32) s

/-- STATUS.OK, 30_encoding R76. -/
def execStatusOk (s : State) : Result := reportCode (Status.ok.code.setWidth 32) s

/-- STATUS.FAIL, 30_encoding R76. -/
def execStatusFail (s : State) : Result := reportCode (Status.fail.code.setWidth 32) s

/-- ERR.none, 60_exceptions R200. -/
def execErrNone (s : State) : Result := reportCode (ErrCode.none.code.setWidth 32) s

/-- ERR.ParseError, 60_exceptions R200. -/
def execErrParseError (s : State) : Result := reportCode (ErrCode.parseError.code.setWidth 32) s

/-- ERR.EmptyImageError, 60_exceptions R200. -/
def execErrEmptyImageError (s : State) : Result := reportCode (ErrCode.emptyImageError.code.setWidth 32) s

/-- ERR.IOError, 60_exceptions R200. -/
def execErrIoError (s : State) : Result := reportCode (ErrCode.ioError.code.setWidth 32) s

/-- ERR.TransportError, 60_exceptions R200. -/
def execErrTransportError (s : State) : Result := reportCode (ErrCode.transportError.code.setWidth 32) s

end Sys2Proof.Machine
end

