-- ==== Sys2Proof/Machine/Checksum.lean ====
section
/-! DEFINITION. The Checksum Engine (40_crc): the table, the per-byte update, and the meanings of `CKS.INIT`, `CKS.BYTE` and
`CKS.READ`. -/

namespace Sys2Proof.Machine

/-- One turn of the recurrence of 40_crc R90: shift right, and exclusive or with the constant if the bit shifted out
was 1. -/
def crcShift (poly entry : Word) : Word :=
  if entry.getLsbD 0 then (entry >>> 1) ^^^ poly else entry >>> 1

/-- The recurrence repeated. -/
def crcShifts (poly : Word) : Nat → Word → Word
  | 0, entry => entry
  | n + 1, entry => crcShifts poly n (crcShift poly entry)

/-- `TBL[i]`, 40_crc R90. -/
def tableEntry (poly : Word) (i : Byte) : Word := crcShifts poly 8 (i.setWidth 32)

/-- The accumulator after one byte, 40_crc R92. -/
def crcByte (poly crc : Word) (b : Byte) : Word :=
  (crc >>> 8) ^^^ tableEntry poly ((crc ^^^ b.setWidth 32).extractLsb' 0 8)

/-- The accumulator after a sequence of bytes. -/
def crcBytes (poly crc : Word) (bs : List Byte) : Word := bs.foldl (crcByte poly) crc

/-- `CKS.SUM` of one part, 40_crc R94, as a function: what `CKS.READ` gives after `CKS.INIT` and the bytes. -/
def checksum (poly : Word) (bs : List Byte) : Word := ~~~ crcBytes poly Config.crcInit bs

/-- The bit-serial form of the update, 40_crc R97. -/
def crcBitwise (poly crc : Word) (b : Byte) : Word := crcShifts poly 8 (crc ^^^ b.setWidth 32)

/-- `CKS.INIT`, 40_crc R91. -/
def execCksInit (s : State) : Result := finish { s with crc := Config.crcInit }

/-- `CKS.BYTE b`, 40_crc R92. -/
def execCksByte (b : Byte) (s : State) : Result := finish { s with crc := crcByte s.params.polyR s.crc b }

/-- `CKS.READ`, 40_crc R93: the complement of the accumulator, which is not changed. -/
def execCksRead (s : State) : Result := .next (s.reply (.word (~~~ s.crc)))

end Sys2Proof.Machine
end

