-- ==== Sys2Proof/Machine/Flags.lean ====
section
/-! DEFINITION. The computed flags of the spec: the progress percentage (43_transmit R172) and the severity of a message
(42_reassembler R137). SBL has no condition codes (10_state R23). -/

namespace Sys2Proof.Machine

/-- `floor(100 * sent / size)`, computed without overflow, 43_transmit R172. -/
def progressOf (sent size : Word) : BitVec 7 := BitVec.ofNat 7 (100 * sent.toNat / size.toNat)

/-- The severity the first three bytes mark, if they are one of the four prefixes of 30_encoding R67. -/
def prefixSeverity (m : List Byte) : Option Severity :=
  let p := m.take 3
  if p = prefixD then some .debug
  else if p = prefixI then some .info
  else if p = prefixW then some .warn
  else if p = prefixE then some .error
  else none

/-- `classify(m)`, 42_reassembler R137. -/
def classify (m : List Byte) : Severity := (prefixSeverity m).getD .default

end Sys2Proof.Machine
end

