-- ==== Sys2Proof/Machine/Operands.lean ====
section
/-! DEFINITION. Operand forms: the tokens of a byte sequence and its splitting (42_reassembler R131 to R133), the grammar of
the source text (30_encoding R64), the payload chunk of a stage (43_transmit R167). -/

namespace Sys2Proof.Machine

/-! ## Tokens in a byte sequence -/

/-- `find_nl(s)`, 42_reassembler R131: the smallest offset of a newline. -/
def findNl : List Byte → Option Nat
  | [] => none
  | b :: t => if b = newline then some 0 else (findNl t).map (· + 1)

/-- The smallest offset of a prefix, offset 0 included. -/
def findPfxAny : List Byte → Option Nat
  | [] => none
  | b :: t => if (prefixSeverity (b :: t)).isSome then some 0 else (findPfxAny t).map (· + 1)

/-- `find_pfx(s)`, 42_reassembler R132: the smallest offset of 1 or more of a prefix. -/
def findPfx : List Byte → Option Nat
  | [] => none
  | _ :: t => (findPfxAny t).map (· + 1)

/-- Where one turn of the splitting loop cuts the front message off (42_reassembler R133, steps 3 to 5): before an
interrupting prefix that stands before any newline, else after the first newline, else nowhere. -/
def cutPoint (p : List Byte) : Option Nat :=
  match findPfx p, findNl p with
  | some i, none => some i
  | some i, some n => if i < n then some i else some (n + 1)
  | none, some n => some (n + 1)
  | none, none => none

/-- The splitting loop with at most `fuel` turns: the messages cut off, front first, and what remains. -/
def splitFuel : Nat → List Byte → List (List Byte) × List Byte
  | 0, p => ([], p)
  | fuel + 1, p =>
    match cutPoint p with
    | none => ([], p)
    | some c => ((p.take c :: (splitFuel fuel (p.drop c)).1), (splitFuel fuel (p.drop c)).2)

/-- The splitting of a byte sequence. Every turn removes a byte, so `len` turns are enough (42_reassembler R133). -/
def splitAll (p : List Byte) : List (List Byte) × List Byte := splitFuel p.length p

/-! ## The source text, 30_encoding R64 -/

/-- Whitespace: space, tab, carriage return, line feed, vertical tab, form feed. -/
def isSpace (b : Byte) : Bool :=
  b == 0x20 || b == 0x09 || b == 0x0D || b == 0x0A || b == 0x0B || b == 0x0C

/-- The lines of a text, each ended by 0x0A; what follows the last 0x0A is a line too, blank when it is empty. -/
def linesOf : List Byte → List (List Byte)
  | [] => [[]]
  | b :: t =>
    if b = newline then [] :: linesOf t
    else match linesOf t with
      | [] => [[b]]
      | l :: ls => (b :: l) :: ls

/-- A line with surrounding whitespace removed. -/
def trim (l : List Byte) : List Byte :=
  ((l.dropWhile isSpace).reverse.dropWhile isSpace).reverse

/-- The value of a hexadecimal digit. -/
def hexDigit (b : Byte) : Option Nat :=
  if 0x30 ≤ b.toNat ∧ b.toNat ≤ 0x39 then some (b.toNat - 0x30)
  else if 0x61 ≤ b.toNat ∧ b.toNat ≤ 0x66 then some (b.toNat - 0x61 + 10)
  else if 0x41 ≤ b.toNat ∧ b.toNat ≤ 0x46 then some (b.toNat - 0x41 + 10)
  else none

/-- The value of a sequence of digits read after `acc`; `none` if a byte is no digit. -/
def hexValue (acc : Nat) : List Byte → Option Nat
  | [] => some acc
  | b :: t => (hexDigit b).bind (fun d => hexValue (acc * 16 + d) t)

/-- A trimmed, non-empty line as a word: hexadecimal digits whose value fits 32 bits. -/
def wordOf (l : List Byte) : Option Word :=
  (hexValue 0 l).bind (fun n => if n ≤ 0xFFFFFFFF then some (BitVec.ofNat 32 n) else none)

/-- The words of the lines, blank lines skipped; or the number of the first bad line, counting every line from `k`. -/
def parseLines (k : Nat) : List (List Byte) → Except Nat (List Word)
  | [] => .ok []
  | l :: ls =>
    if trim l = [] then parseLines (k + 1) ls
    else match wordOf (trim l) with
      | none => .error k
      | some w => (match parseLines (k + 1) ls with
          | .ok ws => .ok (w :: ws)
          | .error j => .error j)

/-- The words of a source text, or the number of its first bad line, counted from 1. -/
def parseText (t : List Byte) : Except Nat (List Word) := parseLines 1 (linesOf t)

/-! ## The payload chunk of a stage -/

/-- `n` of 43_transmit R167: `min(cfg.chunk, frm.size - tx.sent)`. -/
def State.chunkLength (s : State) : Nat := min s.cfgChunk.toNat (s.frmSize.toNat - s.txSent.toNat)

end Sys2Proof.Machine
end

