-- ==== Sys2Proof/Machine/FrameBuild.lean ====
section
/-! DEFINITION. The frame formatter (41_frame_build): `IMG.PARSE`, `PAY.LOAD`, `FRM.BUILD`. -/

namespace Sys2Proof.Machine

/-- An error of the frame formatter: the frame is no longer valid, `PAY` and `frm.size` keep their values, and `tx.err`
holds the code (41_frame_build R110, R112, R117). -/
def failBuild (code : ErrCode) (e : SblError) (s : State) : Result :=
  raise e { s with frmValid := false, txErr := code }

/-- A payload is put in `PAY` from address 0 and its length in `frm.size`; there is no frame of it yet
(41_frame_build R110, R117). -/
def State.loadPayload (s : State) (bytes : List Byte) : State :=
  { s with
    frmValid := false
    pay := s.pay.writeRun 0 bytes
    frmSize := BitVec.ofNat 32 bytes.length
    txErr := .none }

/-- `IMG.PARSE Text(t)` once the sequencer is idle, 41_frame_build R110. -/
def parseImage (t : List Byte) (s : State) : Result :=
  match parseText t with
  | .error k => failBuild .parseError (.parseError k) s
  | .ok ws =>
    if ws = [] then failBuild .emptyImageError .emptyImageError s
    else if s.params.payMax < 4 * ws.length then .refused .payloadTooLong
    else finish (s.loadPayload (ws.flatMap le32))

/-- `IMG.PARSE source`, 41_frame_build R110. -/
def execImgParse (source : Source) (s : State) : Result :=
  if s.txStage ≠ .idle then .refused .sequencerBusy
  else match source with
    | .unreadable => failBuild .ioError .ioError s
    | .text t => parseImage t s

/-- `PAY.LOAD bytes`, 41_frame_build R117. -/
def execPayLoad (bytes : List Byte) (s : State) : Result :=
  if s.txStage ≠ .idle then .refused .sequencerBusy
  else if s.params.payMax < bytes.length then .refused .payloadTooLong
  else if bytes = [] then failBuild .emptyImageError .emptyImageError s
  else finish (s.loadPayload bytes)

/-- The frame's registers once its payload has been summed: `crc` is left holding the complement of `frm.cksum`
(41_frame_build R112). `tx.err` becomes 0 as 10_state R21 says; log entry 20. -/
def State.sealFrame (s : State) (payload : List Byte) : State :=
  { s with
    crc := crcBytes s.params.polyR Config.crcInit (le32 s.frmSize ++ payload)
    frmCksum := checksum s.params.polyR (le32 s.frmSize ++ payload)
    frmValid := true
    txErr := .none }

/-- `FRM.BUILD`, 41_frame_build R112. -/
def execFrmBuild (s : State) : Result :=
  if s.txStage ≠ .idle then .refused .sequencerBusy
  else if s.frmSize = 0 then failBuild .emptyImageError .emptyImageError s
  else match s.payRead 0 s.frmSize.toNat with
    | .error f => .fault f
    | .ok payload => finish (s.sealFrame payload)

end Sys2Proof.Machine
end

