-- ==== Sys2Proof/Machine/FrameFields.lean ====
section
/-! DEFINITION. The frame as a value (41_frame_build R113) and the three frame-field rows of the opcode table (30_encoding
R60): each hands its caller the field's four bytes in wire order and changes no register of the spec. Log entry 16. -/

namespace Sys2Proof.Machine

/-- `FRAME` of a payload and a checksum, 30_encoding R60. -/
def frameOf (size cksum : Word) (payload : List Byte) : List Byte :=
  be32 Config.magic ++ le32 size ++ payload ++ le32 cksum

/-- `FRAME`, defined when `frm.valid` is 1 (41_frame_build R113). -/
def State.frame (s : State) : Option (List Byte) :=
  if s.frmValid then (s.pay.readRun 0 s.frmSize.toNat).map (frameOf s.frmSize s.frmCksum) else none

/-- FRAME.magic: big-endian. -/
def execFrameMagic (s : State) : Result := .next (s.reply (.bytes (be32 Config.magic)))

/-- FRAME.size: `frm.size`, little-endian. -/
def execFrameSize (s : State) : Result := .next (s.reply (.bytes (le32 s.frmSize)))

/-- FRAME.checksum: `frm.cksum`, little-endian. While `frm.valid` is 0 the register means nothing (10_state R13) and the
field is a draw. -/
def execFrameChecksum (s : State) : Result :=
  if s.frmValid then .next (s.reply (.bytes (le32 s.frmCksum)))
  else .next ({ s with draws := s.draws + 1 }.reply (.bytes (le32 (Config.undefinedChecksum s.draws))))

end Sys2Proof.Machine
end

