-- ==== Sys2Proof/Machine/Link.lean ====
section
/-! DEFINITION. The transport as SBL sees it and the configuration (44_link): `LINK.OPEN`, `LINK.CLOSE`, `LINK.DISC`,
`CFG.SET` and the seven rows CFG.SET.<register>. -/

namespace Sys2Proof.Machine

/-- What the answer to an open or a close reports: nothing, or `TransportError(IDLE)`. `tx.err` is not written
(44_link R190, R191; 90_conflicts C10). -/
def linkReport : DevAnswer → Report
  | .ok => .done
  | .fail _ => .raised (.transportError .idle)

/-- `link.open` after DEV has answered an open. -/
def opened : DevAnswer → Bool
  | .ok => true
  | .fail _ => false

/-- `LINK.OPEN`, 44_link R190. -/
def execLinkOpen (s : State) : Result :=
  if s.linkOpen then .refused .linkAlreadyOpen
  else .next ({ s.answered with linkOpen := opened s.answer }.reply (linkReport s.answer))

/-- `LINK.CLOSE`, 44_link R191: the state changes are kept even if DEV reports a failure to close. -/
def execLinkClose (s : State) : Result :=
  if s.linkOpen = false then .refused .linkClosed
  else .next (s.answered.hangUp.reply (linkReport s.answer))

/-- `LINK.DISC`, 44_link R192: a running upload or restart pulse fails at once. -/
def execLinkDisc (s : State) : Result :=
  if s.linkOpen = false then .refused .linkClosed
  else if s.txStage = .idle then finish s.hangUp
  else failAt s.txStage s.hangUp

/-- Write a configuration register, 10_state R29. -/
def State.setCfg (s : State) (v : Word) : CfgReg → State
  | .tDown => { s with cfgTDown := v }
  | .tSettle => { s with cfgTSettle := v }
  | .tGap => { s with cfgTGap := v }
  | .chunk => { s with cfgChunk := v }
  | .tSample => { s with cfgTSample := v }
  | .tQuiet => { s with cfgTQuiet := v }
  | .tRestart => { s with cfgTRestart := v }

/-- The write of a configuration register by the host, 44_link R194: only while the sequencer is idle, and never a chunk
size of 0. -/
def configure (r : CfgReg) (v : Word) (s : State) : Result :=
  if s.txStage ≠ .idle then .refused .sequencerBusy
  else if r = .chunk ∧ v = 0 then .refused .zeroChunk
  else finish (s.setCfg v r)

/-- `CFG.SET idx, v`, 44_link R194. -/
def execCfgSet (idx : Byte) (v : Word) (s : State) : Result :=
  if s.txStage ≠ .idle then .refused .sequencerBusy
  else match CfgReg.ofIndex idx.toNat with
    | none => .refused .noSuchRegister
    | some r => configure r v s

/-- CFG.SET.t_down, index 0. -/
def execCfgSetTDown (v : Word) (s : State) : Result := configure .tDown v s

/-- CFG.SET.t_settle, index 1. -/
def execCfgSetTSettle (v : Word) (s : State) : Result := configure .tSettle v s

/-- CFG.SET.t_gap, index 2. -/
def execCfgSetTGap (v : Word) (s : State) : Result := configure .tGap v s

/-- CFG.SET.chunk, index 3. -/
def execCfgSetChunk (v : Word) (s : State) : Result := configure .chunk v s

/-- CFG.SET.t_sample, index 4. -/
def execCfgSetTSample (v : Word) (s : State) : Result := configure .tSample v s

/-- CFG.SET.t_quiet, index 5. An outstanding deadline is not moved (44_link R194): the model has no deadline's time. -/
def execCfgSetTQuiet (v : Word) (s : State) : Result := configure .tQuiet v s

/-- CFG.SET.t_restart, index 6. That it stay below `cfg.t_down` is not checked by 44_link R194; log entry 22. -/
def execCfgSetTRestart (v : Word) (s : State) : Result := configure .tRestart v s

end Sys2Proof.Machine
end

