-- ==== Sys2Proof/Machine/Reassembler.lean ====
section
/-! DEFINITION. The Frame Reassembler (42_reassembler): `RX.BYTES`, `RX.TEXP`, `RX.QTO`. -/

namespace Sys2Proof.Machine

/-- The messages of a pass, classified and stamped with successive draws (42_reassembler R137, R139). -/
def stamp (n : Nat) : List (List Byte) → List Message
  | [] => []
  | m :: ms => ⟨classify m, m, Config.timestamp n⟩ :: stamp (n + 1) ms

/-- `emit` of each message in turn (42_reassembler R137; order: 20_memory R48). -/
def State.emitAll (s : State) (ms : List (List Byte)) : State :=
  { s with msgs := s.msgs ++ stamp s.draws ms, draws := s.draws + ms.length }

/-- `split_pass()`, 42_reassembler R133: the loop runs to its end; the timer is armed if a fragment remains and cancelled
if the pass drained the buffer (R134). -/
def State.splitPass (s : State) : State :=
  { s.emitAll (splitAll s.rxPending).1 with
    rxPending := (splitAll s.rxPending).2
    rxTimer := if (splitAll s.rxPending).2 = [] then .idle else .armed }

/-- Whether `n` bytes fit a buffer of the given capacity (20_memory R42). -/
def fits (cap : Option Nat) (n : Nat) : Bool :=
  match cap with
  | none => true
  | some m => decide (n ≤ m)

/-- An empty chunk, 42_reassembler R145: nothing is appended; a pending fragment has its timer armed again. -/
def State.rearm (s : State) : State :=
  if s.rxPending = [] then s else { s with rxTimer := .armed }

/-- The whole of an inbound notification, one atomic pass (42_reassembler R130; 20_memory R46). -/
def receive (chunk : List Byte) (s : State) : Result :=
  if s.linkOpen = false then .refused .linkClosed
  else if fits s.params.pendMax (s.rxPending.length + chunk.length) = false then .refused .pendingFull
  else if chunk = [] then finish s.rearm
  else finish { s with rxPending := s.rxPending ++ chunk }.splitPass

/-- `RX.BYTES chunk`, 42_reassembler R130. -/
def execRxBytes (chunk : List Byte) (s : State) : Result := receive chunk s

/-- `RX.TEXP`, 42_reassembler R135. -/
def execRxTexp (s : State) : Result :=
  if s.rxTimer ≠ .armed then .refused .noDeadline
  else finish { s with rxTimer := .idle, rxQtoReq := true }

/-- The flush of `RX.QTO`: the whole of `pending` as one message, if there is any (42_reassembler R136). -/
def State.flush (s : State) : State :=
  if s.rxPending = [] then s else { s.emitAll [s.rxPending] with rxPending := [] }

/-- `RX.QTO`, 42_reassembler R136. The timer is not touched. -/
def execRxQto (s : State) : Result :=
  if s.rxQtoReq = false then .refused .noTimeoutRequest
  else finish { s with rxQtoReq := false }.flush

end Sys2Proof.Machine
end

