-- ==== Sys2Proof/Machine/Tokens.lean ====
section
/-! DEFINITION. The five token rows of the opcode table (30_encoding R66, R67). A token is met in the inbound stream, so its
step is the arrival of exactly its bytes as one chunk. Log entry 15. -/

namespace Sys2Proof.Machine

/-- `NL`, 30_encoding R66. -/
def execTokNl (s : State) : Result := receive [newline] s

/-- `PFX_D`, 30_encoding R67. -/
def execTokPfxD (s : State) : Result := receive prefixD s

/-- `PFX_I`, 30_encoding R67. -/
def execTokPfxI (s : State) : Result := receive prefixI s

/-- `PFX_W`, 30_encoding R67. -/
def execTokPfxW (s : State) : Result := receive prefixW s

/-- `PFX_E`, 30_encoding R67. -/
def execTokPfxE (s : State) : Result := receive prefixE s

end Sys2Proof.Machine
end

