-- ==== Sys2Proof/Machine/Transmit.lean ====
section
/-! DEFINITION. The frame transmitter (43_transmit): what `TX.STEP` does in each stage, and the meanings of `TX.UPLOAD`,
`TX.RESTART`, `TX.STEP` and the nine rows TX.STEP.<stage>. -/

namespace Sys2Proof.Machine

/-- Move the sequencer to a stage. -/
def State.toStage (s : State) (stage : Stage) : State := { s with txStage := stage }

/-- A stage that drives a line: on failure `fail(S)`, else the rest of the stage. -/
def withLine (stage : Stage) (x : Line) (level : Level) (rest : State → Result) (s : State) : Result :=
  match s.lineSet x level with
  | (true, t) => rest t
  | (false, t) => failAt stage t

/-- A stage that writes to the channel: on failure `fail(S)`, else the rest of the stage. -/
def withWrite (stage : Stage) (bytes : List Byte) (rest : State → Result) (s : State) : Result :=
  match s.chanWrite bytes with
  | (true, t) => rest t
  | (false, t) => failAt stage t

/-- Stage `RST_LOW`, 43_transmit R161. -/
def stageRstLow (s : State) : Result :=
  withLine .rstLow .a .active (fun t => finish ((t.doWait .tDown).toStage .rstSettle)) s

/-- Stage `RST_SETTLE`, 43_transmit R162. -/
def stageRstSettle (s : State) : Result :=
  withLine .rstSettle .a .inactive (fun t => finish ((t.doWait .tSettle).toStage .magic)) s

/-- Stage `MAGIC`, 43_transmit R163. -/
def stageMagic (s : State) : Result :=
  withWrite .magic (be32 Config.magic) (fun t => finish (t.toStage .gapM)) s

/-- Stage `GAP_M`, 43_transmit R164. A wait cannot fail. -/
def stageGapM (s : State) : Result := finish ((s.doWait .tGap).toStage .size)

/-- Stage `SIZE`, 43_transmit R165. -/
def stageSize (s : State) : Result :=
  withWrite .size (le32 s.frmSize) (fun t => finish (t.toStage .gapS)) s

/-- Stage `GAP_S`, 43_transmit R166. -/
def stageGapS (s : State) : Result := finish ((s.doWait .tGap).toStage .payload)

/-- The registers after a payload chunk of `n` bytes has gone out, 43_transmit R167: `tx.sent`, the progress (R172), the
drawn throughput and remaining time (R173), the next stage. -/
def State.chunkSent (s : State) (n : Nat) : State :=
  let sent := BitVec.ofNat 32 (s.txSent.toNat + n)
  { s with
    txSent := sent
    txProgress := progressOf sent s.frmSize
    txThr := Config.throughput s.draws
    txEta := Config.remainingTime s.draws
    draws := s.draws + 1
    txStage := if sent = s.frmSize then .cksum else .payload }

/-- Stage `PAYLOAD`, 43_transmit R167: one chunk. -/
def stagePayload (s : State) : Result :=
  match s.payRead s.txSent.toNat s.chunkLength with
  | .error f => .fault f
  | .ok bytes => withWrite .payload bytes (fun t => finish (t.chunkSent s.chunkLength)) s

/-- Completion, 43_transmit R169. -/
def State.complete (s : State) : State := { s with txStatus := .ok, txStage := .idle, frmValid := false }

/-- Stage `CKSUM`, 43_transmit R168. -/
def stageCksum (s : State) : Result :=
  withWrite .cksum (le32 s.frmCksum) (fun t => finish t.complete) s

/-- Stage `RB_PULSE`, 43_transmit R176: line B is released, with no settle wait. -/
def stageRbPulse (s : State) : Result :=
  withLine .rbPulse .b .inactive (fun t => finish (t.toStage .idle)) s

/-- The registers an accepted upload starts from, 43_transmit R160. -/
def State.beginUpload (s : State) (r : Bool) : State :=
  { s with
    txStatus := .run
    txSent := 0
    txProgress := 0
    txRbu := r
    txErr := .none
    txStage := if r then .rstLow else .magic }

/-- `TX.UPLOAD r`, 43_transmit R160. -/
def execTxUpload (r : Bool) (s : State) : Result :=
  if s.txStage ≠ .idle then .refused .sequencerBusy
  else if s.frmValid = false then .refused .noFrame
  else finish (s.beginUpload r)

/-- `TX.RESTART`, 43_transmit R176: line B is asserted and its time waited out; the next `TX.STEP` releases it. -/
def execTxRestart (s : State) : Result :=
  if s.txStage ≠ .idle then .refused .sequencerBusy
  else match ({ s with txErr := .none } : State).lineSet .b .active with
    | (true, t) => finish ((t.doWait .tRestart).toStage .rbPulse)
    | (false, t) => raise (.transportError .rbPulse) { t with txErr := .transportError }

/-- `TX.STEP`, 43_transmit section 3: the stage `tx.stage` names. -/
def execTxStep (s : State) : Result :=
  match s.txStage with
  | .idle => .refused .sequencerIdle
  | .rstLow => stageRstLow s
  | .rstSettle => stageRstSettle s
  | .magic => stageMagic s
  | .gapM => stageGapM s
  | .size => stageSize s
  | .gapS => stageGapS s
  | .payload => stagePayload s
  | .cksum => stageCksum s
  | .rbPulse => stageRbPulse s

/-- A row TX.STEP.<stage> of the opcode table: what `TX.STEP` does when `tx.stage` is that stage. In another stage the
row has no step. Log entry 18. -/
def inStage (stage : Stage) (act : State → Result) (s : State) : Result :=
  if s.txStage = stage then act s else .refused (.otherStage s.txStage)

/-- TX.STEP.RST_LOW, 43_transmit R161. -/
def execTxStepRstLow (s : State) : Result := inStage .rstLow stageRstLow s

/-- TX.STEP.RST_SETTLE, 43_transmit R162. -/
def execTxStepRstSettle (s : State) : Result := inStage .rstSettle stageRstSettle s

/-- TX.STEP.MAGIC, 43_transmit R163. -/
def execTxStepMagic (s : State) : Result := inStage .magic stageMagic s

/-- TX.STEP.GAP_M, 43_transmit R164. -/
def execTxStepGapM (s : State) : Result := inStage .gapM stageGapM s

/-- TX.STEP.SIZE, 43_transmit R165. -/
def execTxStepSize (s : State) : Result := inStage .size stageSize s

/-- TX.STEP.GAP_S, 43_transmit R166. -/
def execTxStepGapS (s : State) : Result := inStage .gapS stageGapS s

/-- TX.STEP.PAYLOAD, 43_transmit R167. -/
def execTxStepPayload (s : State) : Result := inStage .payload stagePayload s

/-- TX.STEP.CKSUM, 43_transmit R168. -/
def execTxStepCksum (s : State) : Result := inStage .cksum stageCksum s

/-- TX.STEP.RB_PULSE, 43_transmit R176. -/
def execTxStepRbPulse (s : State) : Result := inStage .rbPulse stageRbPulse s

end Sys2Proof.Machine
end

