-- ==== Sys2Proof/Machine/Dispatch.lean ====
section
/-! DEFINITION. One arm for each row of spec/opcode_table.json, in the table's order. -/

namespace Sys2Proof.Machine

def exec (i : Instr) (s : State) : Host.Outcome State Fault Refusal :=
  match i with
  | .cksInit => Sys2Proof.Machine.execCksInit s
  | .cksByte b => Sys2Proof.Machine.execCksByte b s
  | .cksRead => Sys2Proof.Machine.execCksRead s
  | .imgParse source => Sys2Proof.Machine.execImgParse source s
  | .frmBuild => Sys2Proof.Machine.execFrmBuild s
  | .payLoad bytes => Sys2Proof.Machine.execPayLoad bytes s
  | .rxBytes chunk => Sys2Proof.Machine.execRxBytes chunk s
  | .rxTexp => Sys2Proof.Machine.execRxTexp s
  | .rxQto => Sys2Proof.Machine.execRxQto s
  | .txUpload r => Sys2Proof.Machine.execTxUpload r s
  | .txRestart => Sys2Proof.Machine.execTxRestart s
  | .txStep => Sys2Proof.Machine.execTxStep s
  | .linkOpen => Sys2Proof.Machine.execLinkOpen s
  | .linkClose => Sys2Proof.Machine.execLinkClose s
  | .linkDisc => Sys2Proof.Machine.execLinkDisc s
  | .cfgSet idx v => Sys2Proof.Machine.execCfgSet idx v s
  | .txStepRstLow => Sys2Proof.Machine.execTxStepRstLow s
  | .txStepRstSettle => Sys2Proof.Machine.execTxStepRstSettle s
  | .txStepMagic => Sys2Proof.Machine.execTxStepMagic s
  | .txStepGapM => Sys2Proof.Machine.execTxStepGapM s
  | .txStepSize => Sys2Proof.Machine.execTxStepSize s
  | .txStepGapS => Sys2Proof.Machine.execTxStepGapS s
  | .txStepPayload => Sys2Proof.Machine.execTxStepPayload s
  | .txStepCksum => Sys2Proof.Machine.execTxStepCksum s
  | .txStepRbPulse => Sys2Proof.Machine.execTxStepRbPulse s
  | .cfgSetTDown v => Sys2Proof.Machine.execCfgSetTDown v s
  | .cfgSetTSettle v => Sys2Proof.Machine.execCfgSetTSettle v s
  | .cfgSetTGap v => Sys2Proof.Machine.execCfgSetTGap v s
  | .cfgSetChunk v => Sys2Proof.Machine.execCfgSetChunk v s
  | .cfgSetTSample v => Sys2Proof.Machine.execCfgSetTSample v s
  | .cfgSetTQuiet v => Sys2Proof.Machine.execCfgSetTQuiet v s
  | .cfgSetTRestart v => Sys2Proof.Machine.execCfgSetTRestart v s
  | .tokNl => Sys2Proof.Machine.execTokNl s
  | .tokPfxD => Sys2Proof.Machine.execTokPfxD s
  | .tokPfxI => Sys2Proof.Machine.execTokPfxI s
  | .tokPfxW => Sys2Proof.Machine.execTokPfxW s
  | .tokPfxE => Sys2Proof.Machine.execTokPfxE s
  | .frameMagic => Sys2Proof.Machine.execFrameMagic s
  | .frameSize => Sys2Proof.Machine.execFrameSize s
  | .frameChecksum => Sys2Proof.Machine.execFrameChecksum s
  | .sevDefault => Sys2Proof.Machine.execSevDefault s
  | .sevDebug => Sys2Proof.Machine.execSevDebug s
  | .sevInfo => Sys2Proof.Machine.execSevInfo s
  | .sevWarn => Sys2Proof.Machine.execSevWarn s
  | .sevError => Sys2Proof.Machine.execSevError s
  | .stageIdle => Sys2Proof.Machine.execStageIdle s
  | .stageRstLow => Sys2Proof.Machine.execStageRstLow s
  | .stageRstSettle => Sys2Proof.Machine.execStageRstSettle s
  | .stageMagic => Sys2Proof.Machine.execStageMagic s
  | .stageGapM => Sys2Proof.Machine.execStageGapM s
  | .stageSize => Sys2Proof.Machine.execStageSize s
  | .stageGapS => Sys2Proof.Machine.execStageGapS s
  | .stagePayload => Sys2Proof.Machine.execStagePayload s
  | .stageCksum => Sys2Proof.Machine.execStageCksum s
  | .stageRbPulse => Sys2Proof.Machine.execStageRbPulse s
  | .statusNone => Sys2Proof.Machine.execStatusNone s
  | .statusRun => Sys2Proof.Machine.execStatusRun s
  | .statusOk => Sys2Proof.Machine.execStatusOk s
  | .statusFail => Sys2Proof.Machine.execStatusFail s
  | .errNone => Sys2Proof.Machine.execErrNone s
  | .errParseError => Sys2Proof.Machine.execErrParseError s
  | .errEmptyImageError => Sys2Proof.Machine.execErrEmptyImageError s
  | .errIoError => Sys2Proof.Machine.execErrIoError s
  | .errTransportError => Sys2Proof.Machine.execErrTransportError s

end Sys2Proof.Machine
end

