-- ==== Sys2Proof/Machine/Step.lean ====
section
/-! DEFINITION. One step: take the next issued operation and run it. -/

namespace Sys2Proof.Machine

/-- One step of the machine: the next issued operation is decoded and taken from the queue, then run. SBL fetches no
instructions and has no program counter (10_state R16); the queue is the schedule of the agents (60_exceptions R210). -/
def step (s : State) : Host.Outcome State Fault Refusal :=
  match s.fetch with
  | .error r => .refused r
  | .ok (i, t) => exec i t

/-- The state with a word of the opcode table issued before every other operation. -/
def State.withFetchWord (s : State) (nbits w : Nat) : State :=
  { s with issue := itemOfTableWord nbits w :: s.issue }

end Sys2Proof.Machine
end

