-- ==== Sys2Proof/Machine/Pseudo.lean ====
section
/-! DEFINITION. Sequences of operations and the four pseudo-operations of 30_encoding R80, which have no selector. -/

namespace Sys2Proof.Machine

/-- Operations one after the other, stopping at the first fault or refusal. -/
def execAll : List Instr → State → Result
  | [], s => .next s
  | i :: is, s =>
    match exec i s with
    | .next t => execAll is t
    | .fault f => .fault f
    | .refused r => .refused r

/-- Whether the last operation raised an error. -/
def State.hasRaised (s : State) : Bool :=
  match s.report with
  | .raised _ => true
  | .done | .word _ | .bytes _ => false

/-- The operations of `CKS.SUM parts`, 40_crc R94. -/
def cksSumOps (parts : List (List Byte)) : List Instr :=
  .cksInit :: (parts.flatten.map .cksByte ++ [.cksRead])

/-- `CKS.SUM parts`, 40_crc R94: the result is the report. -/
def cksSum (parts : List (List Byte)) (s : State) : Result := execAll (cksSumOps parts) s

/-- `build(source)`, 41_frame_build R115: `IMG.PARSE`, and if that raised nothing, `FRM.BUILD`. -/
def build (source : Source) (s : State) : Result :=
  match exec (.imgParse source) s with
  | .next t => if t.hasRaised then .next t else exec .frmBuild t
  | .fault f => .fault f
  | .refused r => .refused r

/-- `onQuietTimeout` as one call, 30_encoding R80, with nothing between its two halves. -/
def onQuietTimeout (s : State) : Result := execAll [.rxTexp, .rxQto] s

/-- `TX.STEP` until `tx.stage` is `IDLE`, at most `fuel` times. -/
def stepUntilIdle : Nat → State → Result
  | 0, s => .next s
  | fuel + 1, s =>
    if s.txStage = .idle then .next s
    else match exec .txStep s with
      | .next t => stepUntilIdle fuel t
      | .fault f => .fault f
      | .refused r => .refused r

/-- How many `TX.STEP` an upload can take: one for each payload byte and eight more. -/
def uploadFuel (s : State) : Nat := s.frmSize.toNat + 8

/-- `upload(frame, r)`, 30_encoding R80: `TX.UPLOAD r`, then `TX.STEP` until the sequencer is idle. -/
def upload (r : Bool) (s : State) : Result :=
  match exec (.txUpload r) s with
  | .next t => stepUntilIdle (uploadFuel t) t
  | .fault f => .fault f
  | .refused x => .refused x

end Sys2Proof.Machine
end

