-- ==== Sys2Proof/Safety.lean ====
section
/-! DEFINITION. What holds between the steps of one instance: the receive invariant (42_reassembler R142), the transmit
invariant (10_state R16, 30_encoding R63, 43_transmit R167 to R172), and what a safe step is. -/

namespace Sys2Proof

/-- Whether a stage is one of an upload (30_encoding R75: `RB_PULSE` is "not part of upload"). -/
def Stage.uploading : Stage → Bool
  | .idle | .rbPulse => false
  | .rstLow | .rstSettle | .magic | .gapM | .size | .gapS | .payload | .cksum => true

/-- Whether a stage comes before the first payload write. -/
def Stage.beforePayload : Stage → Bool
  | .rstLow | .rstSettle | .magic | .gapM | .size | .gapS => true
  | .idle | .payload | .cksum | .rbPulse => false

end Sys2Proof

namespace Sys2Proof.Machine

/-- A byte sequence with no newline and no recognized prefix at an offset of 1 or more, 42_reassembler R142 item 1. -/
def tokenFree (p : List Byte) : Prop := findNl p = none ∧ findPfx p = none

/-- What every emitted message satisfies, 42_reassembler R142 items 2 and 3 and R137: it is non-empty, holds no prefix at
an offset of 1 or more, holds a newline only as its last byte, and its severity is that of its first bytes. -/
structure Message.ok (m : Message) : Prop where
  nonempty : m.text ≠ []
  noInnerPrefix : findPfx m.text = none
  newlineLast : ∀ i, findNl m.text = some i → i + 1 = m.text.length
  severity : m.severity = classify m.text

/-- The invariant of the receive path. -/
structure RxInv (s : State) : Prop where
  /-- 42_reassembler R142 item 1 -/
  pending : tokenFree s.rxPending
  /-- 42_reassembler R142 items 2 and 3 -/
  messages : ∀ m ∈ s.msgs, m.ok
  /-- 42_reassembler R142 item 4 -/
  armed : s.rxPending ≠ [] → s.rxQtoReq = false → s.rxTimer = .armed
  /-- 44_link R193: with the link closed nothing is pending, armed or waiting -/
  closed : s.linkOpen = false → s.rxPending = [] ∧ s.rxTimer = .idle ∧ s.rxQtoReq = false
  /-- 20_memory R42: what is pending fits `PEND_MAX` -/
  capacity : fits s.params.pendMax s.rxPending.length = true

/-- The frame's registers describe the payload in `PAY`: 30_encoding R62 and R63. -/
def FrameBuilt (s : State) : Prop :=
  s.frmSize ≠ 0 ∧
    ∃ payload, s.pay.readRun 0 s.frmSize.toNat = some payload ∧
      s.frmCksum = checksum s.params.polyR (le32 s.frmSize ++ payload)

/-- The invariant of the formatter and the transmitter. -/
structure TxInv (s : State) : Prop where
  /-- the parameters are as 92 section 1 constrains them -/
  params : s.params.wf
  /-- `PAY` is in its canonical form -/
  payWf : s.pay.wf
  /-- 20_memory R40: every address of `PAY` is below `PAY_MAX` -/
  payRange : ∀ c ∈ s.pay, c.1 < s.params.payMax
  /-- 20_memory R41: bytes 0 to `frm.size` - 1 have been written -/
  payLoaded : ∀ a < s.frmSize.toNat, (s.pay.read a).isSome = true
  /-- 41_frame_build R111 -/
  sizeFits : s.frmSize.toNat ≤ s.params.payMax
  /-- 30_encoding R62, R63 -/
  built : s.frmValid = true → FrameBuilt s
  /-- 10_state R29: `cfg.chunk` is at least 1 -/
  chunk : s.cfgChunk ≠ 0
  /-- 10_state R19, 41_frame_build R114: an upload in progress has status `RUN` and a valid frame -/
  running : s.txStage.uploading = true → s.txStatus = .run ∧ s.frmValid = true
  /-- 10_state R19: no upload in progress, no status `RUN` -/
  resting : s.txStage.uploading = false → s.txStatus ≠ .run
  /-- 10_state R17: nothing is sent before the payload stage -/
  sentBefore : s.txStage.beforePayload = true → s.txSent = 0
  /-- 43_transmit R167: `tx.sent < frm.size` in the payload stage -/
  sentDuring : s.txStage = .payload → s.txSent.toNat < s.frmSize.toNat
  /-- 43_transmit R167: all is sent when the checksum is due -/
  sentAfter : s.txStage = .cksum → s.txSent = s.frmSize
  /-- 43_transmit R172 -/
  progress : s.txStage.uploading = true → s.txProgress = progressOf s.txSent s.frmSize
  /-- 10_state R20 -/
  progressMax : s.txProgress.toNat ≤ 100
  /-- 43_transmit R169: "`tx.progress` is already 100" -/
  progressOk : s.txStatus = .ok → s.txProgress = 100
  /-- 43_transmit R171: a failed upload names a stage of the upload -/
  failStage : s.txStatus = .fail → s.txFailStage.uploading = true
  /-- 43_transmit R162: line A is asserted while its release is due -/
  lineAHeld : s.txStage = .rstSettle → s.lineA = .active
  /-- 43_transmit R176: line B is asserted while its release is due -/
  lineBHeld : s.txStage = .rbPulse → s.lineB = .active
  /-- 10_state R27: a `Write` event holds a non-empty byte sequence -/
  writes : ∀ bs, .write bs ∈ s.wire → bs ≠ []

/-- A step that does not fault, 60_exceptions R207. -/
def Safe (s : State) : Prop := ∀ f, step s ≠ .fault f

end Sys2Proof.Machine
end

