-- ==== Sys2Proof/Certificates/Slice0/Obligations.lean ====
section
/-! DEFINITION. The statements about the model, each formalising a rule of spec/ or resting on named sections of it. A
statement that fixes the whole next state says the frame with it: every field it does not name is unchanged. The fields
`params`, `report`, `issue`, `devAnswers` and `draws` are the model's own (log entries 1, 19, 12, 11 and 9): what a statement
says of them is the model's choice. `report` carries the result or the error the spec hands to the caller; `s.answer` is
DEV's next answer, and taking it changes `devAnswers` and `draws` only. -/

namespace Sys2Proof.Machine

/-! ## Source texts, for the statements about `IMG.PARSE`: 30_encoding R64, said without the model's own parser -/

/-- The text with the given lines: a newline between one line and the next, none after the last. A text whose last line is
ended has an empty line after it. -/
def textOfLines : List (List Byte) → List Byte
  | [] => []
  | [l] => l
  | l :: m :: ls => l ++ 0x0A :: textOfLines (m :: ls)

/-- Whitespace inside a line: space, tab, carriage return, vertical tab, form feed. -/
def lineSpaces : List Byte := [0x20, 0x09, 0x0D, 0x0B, 0x0C]

/-- A line of whitespace only. -/
def blankLine (l : List Byte) : Prop := ∀ b ∈ l, b ∈ lineSpaces

/-- The hexadecimal digits, each with its value. -/
def digitValues : List (Byte × Nat) :=
  [(0x30, 0), (0x31, 1), (0x32, 2), (0x33, 3), (0x34, 4), (0x35, 5), (0x36, 6), (0x37, 7), (0x38, 8), (0x39, 9),
    (0x61, 10), (0x62, 11), (0x63, 12), (0x64, 13), (0x65, 14), (0x66, 15),
    (0x41, 10), (0x42, 11), (0x43, 12), (0x44, 13), (0x45, 14), (0x46, 15)]

/-- The number a sequence of digits stands for, the first digit the most significant. -/
def numberOf (l : List Byte) : Nat := l.foldl (fun n b => 16 * n + (digitValues.lookup b).getD 0) 0

/-- A word as it may be written: one or more hexadecimal digits whose value fits 32 bits. -/
def wordText (l : List Byte) : Prop :=
  l ≠ [] ∧ (∀ b ∈ l, b ∈ digitValues.map Prod.fst) ∧ numberOf l ≤ 0xFFFFFFFF

/-- A line that is one word with whitespace around it. -/
def wordLine (l : List Byte) : Prop := ∃ b m a, l = b ++ m ++ a ∧ blankLine b ∧ wordText m ∧ blankLine a

/-- The character of a hexadecimal digit, ASCII. -/
def hexChar (upper : Bool) (d : Nat) : Byte :=
  if d < 10 then BitVec.ofNat 8 (0x30 + d) else BitVec.ofNat 8 ((if upper then 0x41 else 0x61) + (d - 10))

/-- A number in hexadecimal digits, most significant first, one for each entry of the list: the digit's letter case. -/
def hexDigits : List Bool → Nat → List Byte
  | [], _ => []
  | upper :: rest, n => hexChar upper (n / 16 ^ rest.length % 16) :: hexDigits rest n

/-- How one line is laid out: the whitespace around its word, and the letter case of each of its digits; `word = none` is
a blank line. -/
structure SourceLine where
  before : List Byte
  after  : List Byte
  cases  : List Bool
  word   : Option Word
deriving DecidableEq, Repr

/-- The line's whitespace is whitespace, and its word fits its digits. -/
def SourceLine.ok (l : SourceLine) : Prop :=
  blankLine l.before ∧ blankLine l.after ∧ ∀ w ∈ l.word, l.cases ≠ [] ∧ w.toNat < 16 ^ l.cases.length

/-- The bytes of a line. -/
def SourceLine.render (l : SourceLine) : List Byte :=
  l.before ++ (match l.word with
    | none => []
    | some w => hexDigits l.cases w.toNat) ++ l.after

/-- The bytes of a text of such lines, its last line ended or not. -/
def renderText (ls : List SourceLine) : List Byte := textOfLines (ls.map SourceLine.render)

/-- The words of a text, in order. -/
def textWords (ls : List SourceLine) : List Word := ls.filterMap SourceLine.word

/-! ## What an upload puts on the wire, for the statement about a whole upload -/

/-- A payload cut into chunks of `c` bytes, the last perhaps shorter. -/
def chunksOf (c : Nat) : Nat → List Byte → List (List Byte)
  | 0, _ => []
  | fuel + 1, p => if p = [] then [] else p.take c :: chunksOf c fuel (p.drop c)

/-- The payload chunks of an upload from `s`. -/
def payloadChunks (s : State) (payload : List Byte) : List (List Byte) :=
  chunksOf s.cfgChunk.toNat payload.length payload

/-- The wire trace of a successful upload, 43_transmit R178. -/
def uploadTrace (r : Bool) (s : State) (payload : List Byte) : List WireEvent :=
  (if r then [.line .a .active, .wait .tDown s.cfgTDown, .line .a .inactive, .wait .tSettle s.cfgTSettle] else []) ++
    [.write [0xDE, 0xAD, 0xBE, 0xEF], .wait .tGap s.cfgTGap, .write (le32 s.frmSize), .wait .tGap s.cfgTGap] ++
    (payloadChunks s payload).map .write ++ [.write (le32 s.frmCksum)]

/-- How often a successful upload asks DEV. -/
def uploadQuestions (r : Bool) (s : State) (payload : List Byte) : Nat :=
  (if r then 2 else 0) + 3 + (payloadChunks s payload).length

/-- The bytes that went out on the channel. -/
def writtenBytes : List WireEvent → List Byte
  | [] => []
  | .write bs :: es => bs ++ writtenBytes es
  | .line _ _ :: es => writtenBytes es
  | .wait _ _ :: es => writtenBytes es

/-- The texts of messages. -/
def texts (ms : List Message) : List (List Byte) := ms.map Message.text

/-- The operations of the receive path. -/
def receiveSide : Instr → Prop
  | .rxBytes _ | .rxTexp | .rxQto | .tokNl | .tokPfxD | .tokPfxI | .tokPfxW | .tokPfxE => True
  | _ => False

/-- The operations of the transmit path. -/
def transmitSide : Instr → Prop
  | .txUpload _ | .txRestart | .txStep | .txStepRstLow | .txStepRstSettle | .txStepMagic | .txStepGapM | .txStepSize
  | .txStepGapS | .txStepPayload | .txStepCksum | .txStepRbPulse => True
  | _ => False

/-- What a failed stage of an upload leaves: 43_transmit R171, applied to the state its write or line change left. -/
def failedAt (stage : Stage) (s : State) : State :=
  { s with
    txStatus := .fail
    txFailStage := stage
    txErr := .transportError
    txStage := .idle
    frmValid := false
    report := .raised (.transportError stage) }

/-- The state once DEV's answer is taken and events are appended to the wire. -/
def State.answeredWith (s : State) (events : List WireEvent) : State :=
  { s with devAnswers := s.devAnswers.tail, draws := s.answered.draws, wire := s.wire ++ events }

/-- The events of a write of which `k` bytes went out before it failed: none when `k` is 0. -/
def frontEvents (bytes : List Byte) (k : Nat) : List WireEvent :=
  if k = 0 then [] else [.write (bytes.take k)]

end Sys2Proof.Machine

open Sys2Proof Sys2Proof.Machine

/-! ## The Checksum Engine -/

/-- 40_crc R91: `CKS.INIT` sets the accumulator and nothing else. -/
def Obligations.CksInitSetsAccumulator : Prop :=
  ∀ s : State, exec .cksInit s = .next { s with crc := 0xFFFFFFFF, report := .done }

/-- 40_crc R92: `CKS.BYTE b` takes one table entry and writes nothing but the accumulator. -/
def Obligations.CksByteUsesTheTable : Prop :=
  ∀ (s : State) (b : Byte), exec (.cksByte b) s = .next { s with
    crc := (s.crc >>> 8) ^^^ tableEntry s.params.polyR ((s.crc ^^^ b.setWidth 32).setWidth 8)
    report := .done }

/-- The bit-serial form of `CKS.BYTE`, for every `POLY_R`. An inference the spec marks as its own (40_crc R97). -/
def Obligations.CksByteIsBitSerial : Prop :=
  ∀ (s : State) (b : Byte), exec (.cksByte b) s = .next { s with
    crc := crcShifts s.params.polyR 8 (s.crc ^^^ b.setWidth 32)
    report := .done }

/-- Entries of the table of 40_crc R90: entry 0 is 0 and entry 0x80 is `POLY_R` for every `POLY_R`, and four entries of
the spec's printed tables. -/
def Obligations.TableEntriesAreAsPrinted : Prop :=
  (∀ poly : Word, tableEntry poly 0 = 0 ∧ tableEntry poly 0x80 = poly) ∧
    tableEntry 0x04C11DB7 0x01 = 0x06233697 ∧ tableEntry 0x04C11DB7 0xFF = 0x0560FB57 ∧
    tableEntry 0xEDB88320 0x01 = 0x77073096 ∧ tableEntry 0xEDB88320 0xFF = 0x2D02EF8D

/-- 40_crc R93: `CKS.READ` gives the complement of the accumulator and leaves it as it was. -/
def Obligations.CksReadGivesComplement : Prop :=
  ∀ s : State, exec .cksRead s = .next { s with report := .word (s.crc ^^^ 0xFFFFFFFF) }

/-- 40_crc R94: `CKS.SUM parts` gives the checksum of the parts joined, whatever the accumulator held and wherever the
cuts are, and writes nothing but the accumulator. -/
def Obligations.CksSumDependsOnJoinedParts : Prop :=
  ∀ (s : State) (parts : List (List Byte)), cksSum parts s = .next { s with
    crc := parts.flatten.foldl (crcByte s.params.polyR) 0xFFFFFFFF
    report := .word (parts.flatten.foldl (crcByte s.params.polyR) 0xFFFFFFFF ^^^ 0xFFFFFFFF) }

/-- The sum of nothing is 0, and sums of one to four bytes 0xFF do not depend on the table. Inferences the spec marks as
its own (40_crc R98, R99). -/
def Obligations.SumsOfNothingAndOfOnes : Prop :=
  ∀ poly : Word,
    checksum poly [] = 0 ∧ checksum poly [0xFF] = 0xFF000000 ∧ checksum poly [0xFF, 0xFF] = 0xFFFF0000 ∧
      checksum poly [0xFF, 0xFF, 0xFF] = 0xFFFFFF00 ∧ checksum poly [0xFF, 0xFF, 0xFF, 0xFF] = 0xFFFFFFFF

/-- Checksums of 95_test_vectors section 1.2 under each reading of `POLY_R`. -/
def Obligations.KnownChecksums : Prop :=
  checksum 0x04C11DB7 [4, 0, 0, 0, 1, 2, 3, 4] = 0xF8A3D221 ∧
    checksum 0xEDB88320 [4, 0, 0, 0, 1, 2, 3, 4] = 0x7610F542 ∧
    checksum 0x04C11DB7 [0x31, 0x32, 0x33, 0x34, 0x35, 0x36, 0x37, 0x38, 0x39] = 0xFC4F2BE9 ∧
    checksum 0xEDB88320 [0x31, 0x32, 0x33, 0x34, 0x35, 0x36, 0x37, 0x38, 0x39] = 0xCBF43926

/-- With `POLY_R = 0x04C11DB7` the top five bits of the checksum of every non-empty input are ones. An inference the spec
marks as its own (40_crc R100). -/
def Obligations.TopBitsUnderReadingA : Prop :=
  ∀ bs : List Byte, bs ≠ [] → 0xF8000000 ≤ (checksum 0x04C11DB7 bs).toNat

/-! ## The frame formatter -/

/-- `IMG.PARSE` of a text reads its words: whatever the blank lines, the whitespace around the words, the letter case of
each digit, the number of digits, and whether the last line is ended, `PAY` gets the words' `le32` bytes from address 0 up
and keeps every other byte, and `frm.size` is four times their number. 41_frame_build R110; that the layout does not matter
is an inference the spec marks as its own (R119 item 5). -/
def Obligations.ImgParseReadsTheWords : Prop :=
  ∀ (s : State) (ls : List SourceLine), s.txStage = .idle → s.pay.wf → s.params.wf →
    (∀ l ∈ ls, l.ok) → textWords ls ≠ [] → 4 * (textWords ls).length ≤ s.params.payMax →
    ∃ t, exec (.imgParse (.text (renderText ls))) s = .next t ∧
      t = { s with
        frmValid := false
        pay := t.pay
        frmSize := BitVec.ofNat 32 (4 * (textWords ls).length)
        txErr := .none
        report := .done } ∧
      ∀ a, t.pay.read a =
        if a < 4 * (textWords ls).length then ((textWords ls).flatMap le32)[a]? else s.pay.read a

/-- 60_exceptions R201 to R203 and 41_frame_build R110: an unreadable source, the first bad line, a source without data
lines. A bad line is one that is neither blank nor a word of 30_encoding R64 with whitespace around it. Each error leaves
`PAY` and `frm.size` as they were and `frm.valid` 0. A source with more words than `PAY_MAX` holds is refused
(41_frame_build R110, R111). Last, the model's `wordOf` takes exactly the words of R64, each at its value. -/
def Obligations.ImgParseRaisesItsErrors : Prop :=
  (∀ s : State, s.txStage = .idle →
    exec (.imgParse .unreadable) s =
      .next { s with frmValid := false, txErr := .ioError, report := .raised .ioError } ∧
    (∀ (lines : List (List Byte)) (k : Nat) (l : List Byte), (∀ m ∈ lines, (0x0A : Byte) ∉ m) →
      lines[k]? = some l → ¬ blankLine l → ¬ wordLine l →
      (∀ j < k, ∀ m, lines[j]? = some m → blankLine m ∨ wordLine m) →
      exec (.imgParse (.text (textOfLines lines))) s =
        .next { s with frmValid := false, txErr := .parseError, report := .raised (.parseError (k + 1)) }) ∧
    (∀ lines : List (List Byte), (∀ l ∈ lines, blankLine l) →
      exec (.imgParse (.text (textOfLines lines))) s =
        .next { s with frmValid := false, txErr := .emptyImageError, report := .raised .emptyImageError }) ∧
    (∀ ls : List SourceLine, (∀ l ∈ ls, l.ok) → s.params.payMax < 4 * (textWords ls).length →
      exec (.imgParse (.text (renderText ls))) s = .refused .payloadTooLong)) ∧
  ∀ l : List Byte, l ≠ [] →
    ((wordOf l).isSome = true ↔ wordText l) ∧ ∀ w, wordOf l = some w → w.toNat = numberOf l

/-- 41_frame_build R117: `PAY.LOAD` in its four cases; the bytes go to `PAY` from address 0 up and every other byte of
`PAY` is as before. -/
def Obligations.PayLoadStoresItsBytes : Prop :=
  ∀ (s : State) (bytes : List Byte),
    (s.txStage ≠ .idle → exec (.payLoad bytes) s = .refused .sequencerBusy) ∧
    (s.txStage = .idle → s.params.payMax < bytes.length → exec (.payLoad bytes) s = .refused .payloadTooLong) ∧
    (s.txStage = .idle → bytes = [] → exec (.payLoad bytes) s =
      .next { s with frmValid := false, txErr := .emptyImageError, report := .raised .emptyImageError }) ∧
    (s.txStage = .idle → s.pay.wf → bytes ≠ [] → bytes.length ≤ s.params.payMax →
      ∃ t, exec (.payLoad bytes) s = .next t ∧
        t = { s with
          frmValid := false
          pay := t.pay
          frmSize := BitVec.ofNat 32 bytes.length
          txErr := .none
          report := .done } ∧
        ∀ a, t.pay.read a = if a < bytes.length then bytes[a]? else s.pay.read a)

/-- `FRM.BUILD` in its cases, 41_frame_build R112: refused while the sequencer is busy, `EmptyImageError` with no payload,
else the checksum over `le32(frm.size)` and the payload, `crc` left holding its complement. That `tx.err` becomes 0 follows
10_state R21, not R112's pseudocode: the model's choice, log entry 20. -/
def Obligations.FrmBuildSumsSizeAndPayload : Prop :=
  ∀ s : State,
    (s.txStage ≠ .idle → exec .frmBuild s = .refused .sequencerBusy) ∧
    (s.txStage = .idle → s.frmSize = 0 → exec .frmBuild s =
      .next { s with frmValid := false, txErr := .emptyImageError, report := .raised .emptyImageError }) ∧
    (∀ payload : List Byte, s.txStage = .idle → s.frmSize ≠ 0 → s.frmSize.toNat ≤ s.params.payMax → s.pay.wf →
      payload.length = s.frmSize.toNat → (∀ k < payload.length, s.pay.read k = payload[k]?) →
      exec .frmBuild s = .next { s with
        crc := (le32 s.frmSize ++ payload).foldl (crcByte s.params.polyR) 0xFFFFFFFF
        frmCksum := (le32 s.frmSize ++ payload).foldl (crcByte s.params.polyR) 0xFFFFFFFF ^^^ 0xFFFFFFFF
        frmValid := true
        txErr := .none
        report := .done })

/-- Building again without changing `PAY` gives the same checksum (41_frame_build R112, R114), also after other operations
have used the accumulator and after an upload has used the frame. -/
def Obligations.RebuildingGivesTheSameFrame : Prop :=
  ∀ s t u : State, exec .frmBuild s = .next t → t.frmValid = true →
    t.pay = u.pay → t.frmSize = u.frmSize → t.params = u.params → u.txStage = .idle →
    ∃ v, exec .frmBuild u = .next v ∧ v.frmValid = true ∧ v.frmCksum = t.frmCksum ∧ v.frame = t.frame

/-- `build(source)` of a text makes a frame of its words whose size is a multiple of 4 and at least 4 (41_frame_build R115;
R119 item 1 is an inference the spec marks as its own). -/
def Obligations.BuildMakesAFrame : Prop :=
  ∀ (s : State) (ls : List SourceLine), s.txStage = .idle → s.pay.wf → s.params.wf →
    (∀ l ∈ ls, l.ok) → textWords ls ≠ [] → 4 * (textWords ls).length ≤ s.params.payMax →
    ∃ t, build (.text (renderText ls)) s = .next t ∧ t.frmValid = true ∧
      t.frmSize.toNat = 4 * (textWords ls).length ∧ FrameBuilt t ∧
      t.frame = some (frameOf t.frmSize t.frmCksum ((textWords ls).flatMap le32))

/-- A built frame can be checked from its bytes alone: it begins with the magic, its size field counts the rest but for
12 bytes, and the checksum of what lies between magic and checksum is its last field. Inferences the spec marks as its own
(41_frame_build R119 items 2 to 4). -/
def Obligations.BuiltFrameChecksItself : Prop :=
  ∀ s : State, TxInv s → s.frmValid = true →
    ∃ f, s.frame = some f ∧ f.length = 12 + s.frmSize.toNat ∧ f.take 4 = [0xDE, 0xAD, 0xBE, 0xEF] ∧
      (f.drop 4).take 4 = le32 (BitVec.ofNat 32 (f.length - 12)) ∧
      le32 (checksum s.params.polyR ((f.drop 4).take (f.length - 8))) = f.drop (f.length - 4)

/-- While the sequencer is not idle the operations of 41_frame_build R118 are refused, and with them `TX.UPLOAD`
(43_transmit R160), `TX.RESTART` (R176) and `CFG.SET` (44_link R194). -/
def Obligations.BusySequencerRefuses : Prop :=
  ∀ s : State, s.txStage ≠ .idle →
    (∀ x, exec (.imgParse x) s = .refused .sequencerBusy) ∧ (∀ x, exec (.payLoad x) s = .refused .sequencerBusy) ∧
      exec .frmBuild s = .refused .sequencerBusy ∧ (∀ r, exec (.txUpload r) s = .refused .sequencerBusy) ∧
      exec .txRestart s = .refused .sequencerBusy ∧ (∀ i v, exec (.cfgSet i v) s = .refused .sequencerBusy)

/-! ## The Frame Reassembler -/

/-- `RX.BYTES` loses no byte and invents none: the texts of the messages followed by what is pending grow by exactly the
chunk. It writes only the receive path. An inference the spec marks as its own (42_reassembler R142 item 5). -/
def Obligations.RxBytesLosesNoByte : Prop :=
  ∀ (s : State) (chunk : List Byte), s.linkOpen = true →
    fits s.params.pendMax (s.rxPending.length + chunk.length) = true →
    ∃ t, exec (.rxBytes chunk) s = .next t ∧ s.msgs <+: t.msgs ∧
      (texts t.msgs).flatten ++ t.rxPending = (texts s.msgs).flatten ++ s.rxPending ++ chunk ∧
      t = { s with
        msgs := t.msgs
        draws := t.draws
        rxPending := t.rxPending
        rxTimer := t.rxTimer
        report := .done }

/-- 42_reassembler R133, R134: after a pass over a non-empty chunk no token is pending; the timer is `ARMED` if a fragment
remains and `IDLE` if the pass drained the buffer; every new message is well formed and classified. -/
def Obligations.RxBytesLeavesNoToken : Prop :=
  ∀ (s t : State) (chunk : List Byte), chunk ≠ [] → exec (.rxBytes chunk) s = .next t →
    tokenFree t.rxPending ∧ (t.rxPending ≠ [] → t.rxTimer = .armed) ∧ (t.rxPending = [] → t.rxTimer = .idle) ∧
      ∀ m ∈ t.msgs.drop s.msgs.length, m.ok

/-- 42_reassembler R145: an empty chunk appends nothing and arms the timer again if a fragment is pending. With the link
closed (44_link R193) or the buffer full (20_memory R42) an inbound chunk is refused. The five token rows do what the
chunk of their bytes does, refusals with it: the model's choice, log entry 15. -/
def Obligations.RxBytesEmptyChunkAndRefusals : Prop :=
  ∀ s : State,
    (s.linkOpen = true → fits s.params.pendMax s.rxPending.length = true →
      exec (.rxBytes []) s = .next { s with
        rxTimer := if s.rxPending = [] then s.rxTimer else .armed
        report := .done }) ∧
    (s.linkOpen = false → ∀ chunk, exec (.rxBytes chunk) s = .refused .linkClosed) ∧
    (s.linkOpen = true → ∀ chunk n, s.params.pendMax = some n → n < s.rxPending.length + chunk.length →
      exec (.rxBytes chunk) s = .refused .pendingFull) ∧
    ∀ (i : Instr) (p : List Byte),
      (i, p) ∈ [(Instr.tokNl, [0x0A]), (.tokPfxD, [0x5B, 0x44, 0x5D]), (.tokPfxI, [0x5B, 0x49, 0x5D]),
        (.tokPfxW, [0x5B, 0x57, 0x5D]), (.tokPfxE, ([0x5B, 0x45, 0x5D] : List Byte))] →
      exec i s = exec (.rxBytes p) s

/-- Fragmentation independence: feeding chunks one at a time, with no timeout between them, is feeding them whole, to the
last register. An inference the spec marks as its own (42_reassembler R143). -/
def Obligations.FragmentationIndependence : Prop :=
  ∀ (s : State) (chunks : List (List Byte)), chunks ≠ [] → s.linkOpen = true →
    fits s.params.pendMax (s.rxPending.length + chunks.flatten.length) = true →
    execAll (chunks.map .rxBytes) s = exec (.rxBytes chunks.flatten) s

/-- 42_reassembler R135: `RX.TEXP` is single-shot and leaves a request; with no deadline outstanding it is refused. -/
def Obligations.RxTexpRequestsATimeout : Prop :=
  ∀ s : State,
    (s.rxTimer = .armed → exec .rxTexp s = .next { s with rxTimer := .idle, rxQtoReq := true, report := .done }) ∧
    (s.rxTimer ≠ .armed → exec .rxTexp s = .refused .noDeadline)

/-- 42_reassembler R136: `RX.QTO` emits the whole of `pending` as one classified message, or does nothing but clear its
request; the timer is not changed. The timestamp is a draw, about which nothing is said. -/
def Obligations.RxQtoFlushesOnce : Prop :=
  ∀ s : State,
    (s.rxQtoReq = false → exec .rxQto s = .refused .noTimeoutRequest) ∧
    (s.rxQtoReq = true → s.rxPending = [] → exec .rxQto s = .next { s with rxQtoReq := false, report := .done }) ∧
    (s.rxQtoReq = true → s.rxPending ≠ [] → ∃ ts, exec .rxQto s = .next { s with
      rxQtoReq := false
      msgs := s.msgs ++ [⟨classify s.rxPending, s.rxPending, ts⟩]
      draws := s.draws + 1
      rxPending := []
      report := .done })

/-- A pending fragment is surfaced by the timer's own steps: in a state that keeps the receive invariant, `RX.QTO`, or
`RX.TEXP` and then `RX.QTO`, emits all of it as one message (42_reassembler R136, an inference the spec marks as its own). -/
def Obligations.PendingFragmentSurfaces : Prop :=
  ∀ s : State, RxInv s → s.rxPending ≠ [] →
    ∃ ops t ts, (ops = [.rxQto] ∨ ops = [.rxTexp, .rxQto]) ∧ execAll ops s = .next t ∧ t.rxPending = [] ∧
      t.msgs = s.msgs ++ [⟨classify s.rxPending, s.rxPending, ts⟩]

/-- The newline token ends the pending message: the fragment with its newline is emitted as one message and nothing stays
pending (42_reassembler R133 step 4). That the row NL is a step of its own is the model's choice, log entry 15. -/
def Obligations.NewlineTokenEndsTheMessage : Prop :=
  ∀ s : State, s.linkOpen = true → tokenFree s.rxPending → fits s.params.pendMax (s.rxPending.length + 1) = true →
    ∃ ts, exec .tokNl s = .next { s with
      msgs := s.msgs ++ [⟨classify (s.rxPending ++ [0x0A]), s.rxPending ++ [0x0A], ts⟩]
      draws := s.draws + 1
      rxPending := []
      rxTimer := .idle
      report := .done }

/-- A prefix token interrupts the pending message: the fragment before it is emitted as it is, if there is one, and the
token stays pending with the timer armed (42_reassembler R133 steps 3 and 5, R132). That the prefix rows are steps of their
own is the model's choice, log entry 15. -/
def Obligations.PrefixTokensInterrupt : Prop :=
  ∀ (s : State) (i : Instr) (p : List Byte),
    (i, p) ∈ [(Instr.tokPfxD, [0x5B, 0x44, 0x5D]), (.tokPfxI, [0x5B, 0x49, 0x5D]), (.tokPfxW, [0x5B, 0x57, 0x5D]),
      (.tokPfxE, ([0x5B, 0x45, 0x5D] : List Byte))] →
    s.linkOpen = true → tokenFree s.rxPending → fits s.params.pendMax (s.rxPending.length + 3) = true →
    (s.rxPending = [] → exec i s = .next { s with rxPending := p, rxTimer := .armed, report := .done }) ∧
    (s.rxPending ≠ [] → ∃ ts, exec i s = .next { s with
      msgs := s.msgs ++ [⟨classify s.rxPending, s.rxPending, ts⟩]
      draws := s.draws + 1
      rxPending := p
      rxTimer := .armed
      report := .done })

/-- 42_reassembler R137: a message that begins with a prefix has its severity, every other message is `Default`. -/
def Obligations.SeverityIsThatOfThePrefix : Prop :=
  ∀ m : List Byte,
    (m.take 3 = [0x5B, 0x44, 0x5D] → classify m = .debug) ∧ (m.take 3 = [0x5B, 0x49, 0x5D] → classify m = .info) ∧
    (m.take 3 = [0x5B, 0x57, 0x5D] → classify m = .warn) ∧ (m.take 3 = [0x5B, 0x45, 0x5D] → classify m = .error) ∧
    (m.take 3 ∉ [[0x5B, 0x44, 0x5D], [0x5B, 0x49, 0x5D], [0x5B, 0x57, 0x5D], ([0x5B, 0x45, 0x5D] : List Byte)] →
      classify m = .default)

/-- Every step keeps the receive invariant (42_reassembler R142 items 1 to 4, inferences the spec marks as its own; 44_link
R193). -/
def Obligations.StepKeepsReceiveInvariant : Prop :=
  ∀ s t : State, RxInv s → step s = .next t → RxInv t

/-- The reset state meets the receive invariant, whatever the parameters. -/
def Obligations.ResetMeetsReceiveInvariant : Prop :=
  RxInv State.reset ∧ ∀ (p : Params) (q r : Word), RxInv (State.resetWith p q r)

/-! ## The transmitter -/

/-- 43_transmit R160: `TX.UPLOAD r` in its three cases. -/
def Obligations.TxUploadStarts : Prop :=
  ∀ (s : State) (r : Bool),
    (s.txStage ≠ .idle → exec (.txUpload r) s = .refused .sequencerBusy) ∧
    (s.txStage = .idle → s.frmValid = false → exec (.txUpload r) s = .refused .noFrame) ∧
    (s.txStage = .idle → s.frmValid = true → exec (.txUpload r) s = .next { s with
      txStatus := .run
      txSent := 0
      txProgress := 0
      txRbu := r
      txErr := .none
      txStage := if r then .rstLow else .magic
      report := .done })

/-- 43_transmit R161 (with R182, R171): stage `RST_LOW` asserts line A and waits, or fails with the line as it was. -/
def Obligations.StageRstLowAssertsLineA : Prop :=
  ∀ (s : State) (i : Instr), i = .txStep ∨ i = .txStepRstLow → s.txStage = .rstLow →
    (s.linkOpen = true → s.answer = .ok → exec i s = .next
      { s.answeredWith [.line .a .active, .wait .tDown s.cfgTDown] with
        lineA := .active, txStage := .rstSettle, report := .done }) ∧
    (s.linkOpen = true → ∀ k, s.answer = .fail k → exec i s = .next (failedAt .rstLow (s.answeredWith []))) ∧
    (s.linkOpen = false → exec i s = .next (failedAt .rstLow s))

/-- 43_transmit R162 (with R182, R171): stage `RST_SETTLE` releases line A and waits, or fails with the line as it
was. -/
def Obligations.StageRstSettleReleasesLineA : Prop :=
  ∀ (s : State) (i : Instr), i = .txStep ∨ i = .txStepRstSettle → s.txStage = .rstSettle →
    (s.linkOpen = true → s.answer = .ok → exec i s = .next
      { s.answeredWith [.line .a .inactive, .wait .tSettle s.cfgTSettle] with
        lineA := .inactive, txStage := .magic, report := .done }) ∧
    (s.linkOpen = true → ∀ k, s.answer = .fail k → exec i s = .next (failedAt .rstSettle (s.answeredWith []))) ∧
    (s.linkOpen = false → exec i s = .next (failedAt .rstSettle s))

/-- 43_transmit R163 (with R170, R171): stage `MAGIC` writes the four bytes of the magic, or fails after a front part of
them. -/
def Obligations.StageMagicWritesTheMagic : Prop :=
  ∀ (s : State) (i : Instr), i = .txStep ∨ i = .txStepMagic → s.txStage = .magic →
    (s.linkOpen = true → s.answer = .ok → exec i s = .next
      { s.answeredWith [.write [0xDE, 0xAD, 0xBE, 0xEF]] with txStage := .gapM, report := .done }) ∧
    (s.linkOpen = true → ∀ k, s.answer = .fail k → exec i s =
      .next (failedAt .magic (s.answeredWith (frontEvents [0xDE, 0xAD, 0xBE, 0xEF] k)))) ∧
    (s.linkOpen = false → exec i s = .next (failedAt .magic s))

/-- 43_transmit R164 and R166: the two gaps wait and cannot fail, with the link open or closed. -/
def Obligations.GapStagesWait : Prop :=
  ∀ (s : State) (i : Instr),
    (i = .txStep ∨ i = .txStepGapM → s.txStage = .gapM → exec i s =
      .next { s with wire := s.wire ++ [.wait .tGap s.cfgTGap], txStage := .size, report := .done }) ∧
    (i = .txStep ∨ i = .txStepGapS → s.txStage = .gapS → exec i s =
      .next { s with wire := s.wire ++ [.wait .tGap s.cfgTGap], txStage := .payload, report := .done })

/-- 43_transmit R165 (with R170, R171): stage `SIZE` writes `frm.size` least significant byte first. -/
def Obligations.StageSizeWritesTheSize : Prop :=
  ∀ (s : State) (i : Instr), i = .txStep ∨ i = .txStepSize → s.txStage = .size →
    (s.linkOpen = true → s.answer = .ok → exec i s = .next
      { s.answeredWith [.write (le32 s.frmSize)] with txStage := .gapS, report := .done }) ∧
    (s.linkOpen = true → ∀ k, s.answer = .fail k → exec i s =
      .next (failedAt .size (s.answeredWith (frontEvents (le32 s.frmSize) k)))) ∧
    (s.linkOpen = false → exec i s = .next (failedAt .size s))

/-- 43_transmit R167 (with R170 to R173): stage `PAYLOAD` writes the next `min(cfg.chunk, frm.size - tx.sent)` bytes of
`PAY`, counts them, updates the progress and goes on to `CKSUM` when all are sent; or fails after a front part, counting
nothing. The throughput and the remaining time are draws, about which nothing is said. -/
def Obligations.StagePayloadWritesAChunk : Prop :=
  ∀ (s : State) (i : Instr) (n : Nat) (bytes : List Byte), i = .txStep ∨ i = .txStepPayload → s.txStage = .payload →
    s.pay.wf → s.frmSize.toNat ≤ s.params.payMax → s.cfgChunk ≠ 0 → s.txSent.toNat < s.frmSize.toNat →
    n = min s.cfgChunk.toNat (s.frmSize.toNat - s.txSent.toNat) → bytes.length = n →
    (∀ k < n, s.pay.read (s.txSent.toNat + k) = bytes[k]?) →
    (s.linkOpen = true → s.answer = .ok → ∃ thr eta, exec i s = .next
      { s.answeredWith [.write bytes] with
        draws := s.answered.draws + 1
        txSent := s.txSent + BitVec.ofNat 32 n
        txProgress := BitVec.ofNat 7 (100 * (s.txSent.toNat + n) / s.frmSize.toNat)
        txThr := thr
        txEta := eta
        txStage := if s.txSent.toNat + n = s.frmSize.toNat then .cksum else .payload
        report := .done }) ∧
    (s.linkOpen = true → ∀ k, s.answer = .fail k → exec i s =
      .next (failedAt .payload (s.answeredWith (frontEvents bytes k)))) ∧
    (s.linkOpen = false → exec i s = .next (failedAt .payload s))

/-- 43_transmit R168 and R169 (with R170, R171): stage `CKSUM` writes `frm.cksum` least significant byte first and
completes the upload; the frame is used up. -/
def Obligations.StageCksumCompletes : Prop :=
  ∀ (s : State) (i : Instr), i = .txStep ∨ i = .txStepCksum → s.txStage = .cksum →
    (s.linkOpen = true → s.answer = .ok → exec i s = .next
      { s.answeredWith [.write (le32 s.frmCksum)] with
        txStatus := .ok, txStage := .idle, frmValid := false, report := .done }) ∧
    (s.linkOpen = true → ∀ k, s.answer = .fail k → exec i s =
      .next (failedAt .cksum (s.answeredWith (frontEvents (le32 s.frmCksum) k)))) ∧
    (s.linkOpen = false → exec i s = .next (failedAt .cksum s))

/-- 43_transmit R176 (with R182, R171): `TX.RESTART` asserts line B and waits, stage `RB_PULSE` releases it; a failure of
either leaves the line as it was and touches no upload status. -/
def Obligations.RestartPulsesLineB : Prop :=
  ∀ s : State,
    (s.txStage ≠ .idle → exec .txRestart s = .refused .sequencerBusy) ∧
    (s.txStage = .idle → s.linkOpen = true → s.answer = .ok → exec .txRestart s = .next
      { s.answeredWith [.line .b .active, .wait .tRestart s.cfgTRestart] with
        lineB := .active, txErr := .none, txStage := .rbPulse, report := .done }) ∧
    (s.txStage = .idle → s.linkOpen = true → ∀ k, s.answer = .fail k → exec .txRestart s = .next
      { s.answeredWith [] with txErr := .transportError, report := .raised (.transportError .rbPulse) }) ∧
    (s.txStage = .idle → s.linkOpen = false → exec .txRestart s = .next
      { s with txErr := .transportError, report := .raised (.transportError .rbPulse) }) ∧
    ∀ i : Instr, i = .txStep ∨ i = .txStepRbPulse → s.txStage = .rbPulse →
      (s.linkOpen = true → s.answer = .ok → exec i s = .next
        { s.answeredWith [.line .b .inactive] with lineB := .inactive, txStage := .idle, report := .done }) ∧
      (s.linkOpen = true → ∀ k, s.answer = .fail k → exec i s = .next
        { s.answeredWith [] with
          txErr := .transportError, txStage := .idle, report := .raised (.transportError .rbPulse) }) ∧
      (s.linkOpen = false → exec i s = .next
        { s with txErr := .transportError, txStage := .idle, report := .raised (.transportError .rbPulse) })

/-- `TX.STEP` is refused when the sequencer is idle (43_transmit section 3), and a row TX.STEP.<stage> in any other stage.
That such a row is refused there is the model's choice, log entry 18. -/
def Obligations.StepRowsBelongToTheirStage : Prop :=
  ∀ s : State,
    (s.txStage = .idle → exec .txStep s = .refused .sequencerIdle) ∧
    ∀ (i : Instr) (stage : Stage),
      (i, stage) ∈ [(Instr.txStepRstLow, Stage.rstLow), (.txStepRstSettle, .rstSettle), (.txStepMagic, .magic),
        (.txStepGapM, .gapM), (.txStepSize, .size), (.txStepGapS, .gapS), (.txStepPayload, .payload),
        (.txStepCksum, .cksum), (.txStepRbPulse, .rbPulse)] →
      (s.txStage = stage → exec i s = exec .txStep s) ∧
        (s.txStage ≠ stage → exec i s = .refused (.otherStage s.txStage))

/-- 43_transmit R172, 10_state R20: progress is 100 exactly when all payload bytes are sent, never above, and never falls
as bytes are sent; and over every step taken while an upload runs, its last and a failing one too, neither `tx.sent` nor
`tx.progress` falls. -/
def Obligations.ProgressIsHundredOnlyAtTheEnd : Prop :=
  (∀ sent size : Word, size ≠ 0 → sent.toNat ≤ size.toNat →
    ((progressOf sent size).toNat = 100 ↔ sent = size) ∧ (progressOf sent size).toNat ≤ 100 ∧
      ∀ sent' : Word, sent'.toNat ≤ sent.toNat → (progressOf sent' size).toNat ≤ (progressOf sent size).toNat) ∧
  ∀ s t : State, TxInv s → s.txStage.uploading = true → step s = .next t →
    s.txSent.toNat ≤ t.txSent.toNat ∧ s.txProgress.toNat ≤ t.txProgress.toNat

/-- A whole upload whose every question DEV answers `Ok` puts exactly the trace of 43_transmit R178 on the wire, whose
written bytes are the frame, and completes. An inference the spec marks as its own (R178). -/
def Obligations.UploadSendsTheFrame : Prop :=
  ∀ (s : State) (r : Bool) (payload : List Byte) (rest : List DevAnswer), TxInv s → s.txStage = .idle →
    s.frmValid = true → s.linkOpen = true → s.pay.readRun 0 s.frmSize.toNat = some payload →
    s.devAnswers = List.replicate (uploadQuestions r s payload) .ok ++ rest →
    s.frame = some (writtenBytes (uploadTrace r s payload)) ∧
      ∃ t, upload r s = .next t ∧ t.wire = s.wire ++ uploadTrace r s payload ∧ t.txStage = .idle ∧ t.txStatus = .ok ∧
        t.txSent = s.frmSize ∧ t.txProgress = 100 ∧ t.frmValid = false ∧ t.txErr = .none ∧ t.devAnswers = rest ∧
        t.pay = s.pay ∧ t.frmSize = s.frmSize ∧ t.msgs = s.msgs ∧ t.linkOpen = true

/-- Every step keeps the invariant of the formatter and the transmitter: what `frm.valid` promises, where `tx.sent` and
`tx.progress` stand in each stage, which stages belong to status `RUN`, and that `PAY` holds the payload in its canonical
form. -/
def Obligations.StepKeepsTransmitInvariant : Prop :=
  ∀ s t : State, TxInv s → step s = .next t → TxInv t

/-- The reset state meets the invariant of the formatter and the transmitter, whatever the legal parameters. -/
def Obligations.ResetMeetsTransmitInvariant : Prop :=
  TxInv State.reset ∧ ∀ (p : Params) (q r : Word), p.wf → TxInv (State.resetWith p q r)

/-! ## The whole machine -/

/-- 20_memory R53, 41_frame_build R114: while the sequencer is not idle no operation changes the payload, its size, its
checksum or a configuration register. -/
def Obligations.NothingChangesAFrameInUse : Prop :=
  ∀ (i : Instr) (s t : State), s.txStage ≠ .idle → exec i s = .next t →
    t.pay = s.pay ∧ t.frmSize = s.frmSize ∧ t.frmCksum = s.frmCksum ∧ ∀ r, t.cfg r = s.cfg r

/-- The two traces are append-only (10_state R24, R27), over every operation; and no operation changes the parameters, the
model's choice, log entry 1. -/
def Obligations.TracesOnlyGrow : Prop :=
  ∀ (i : Instr) (s t : State), exec i s = .next t → s.msgs <+: t.msgs ∧ s.wire <+: t.wire ∧ t.params = s.params

/-- 60_exceptions R216: the receive path changes nothing of the transmit path, the formatter or the Checksum Engine, and
the transmit path changes nothing of the receive path; neither changes `link.open`. -/
def Obligations.ReceiveAndTransmitAreApart : Prop :=
  ∀ (i : Instr) (s t : State), exec i s = .next t →
    (receiveSide i → t = { s with
      msgs := t.msgs
      rxPending := t.rxPending
      rxTimer := t.rxTimer
      rxQtoReq := t.rxQtoReq
      draws := t.draws
      report := t.report }) ∧
    (transmitSide i → t.msgs = s.msgs ∧ t.rxPending = s.rxPending ∧ t.rxTimer = s.rxTimer ∧
      t.rxQtoReq = s.rxQtoReq ∧ t.linkOpen = s.linkOpen ∧ t.crc = s.crc)

/-- 10_state R28: line A moves only in the stages `RST_LOW` and `RST_SETTLE`, line B only in `TX.RESTART` and its stage
`RB_PULSE`, each to the level that stage sets; and only while the link is open (43_transmit R182). -/
def Obligations.LinesMoveOnlyInTheirStages : Prop :=
  ∀ (i : Instr) (s t : State), exec i s = .next t →
    (t.lineA ≠ s.lineA → transmitSide i ∧ s.linkOpen = true ∧
      ((s.txStage = .rstLow ∧ t.lineA = .active) ∨ (s.txStage = .rstSettle ∧ t.lineA = .inactive))) ∧
    (t.lineB ≠ s.lineB → transmitSide i ∧ s.linkOpen = true ∧
      ((i = .txRestart ∧ t.lineB = .active) ∨ (s.txStage = .rbPulse ∧ t.lineB = .inactive)))

/-- 60_exceptions R207: no operation traps. A state that keeps the invariant of the formatter and the transmitter takes no
faulting step. -/
def Obligations.InvariantStatesAreSafe : Prop :=
  ∀ s : State, TxInv s → Safe s

/-! ## The link and the configuration -/

/-- 44_link R190: `LINK.OPEN` in its three cases; a failed open does not write `tx.err`. -/
def Obligations.LinkOpenAsksThePlatform : Prop :=
  ∀ s : State,
    (s.linkOpen = true → exec .linkOpen s = .refused .linkAlreadyOpen) ∧
    (s.linkOpen = false → s.answer = .ok → exec .linkOpen s =
      .next { s.answeredWith [] with linkOpen := true, report := .done }) ∧
    (s.linkOpen = false → ∀ k, s.answer = .fail k → exec .linkOpen s =
      .next { s.answeredWith [] with report := .raised (.transportError .idle) })

/-- 44_link R191: `LINK.CLOSE` discards the fragment without emitting it and does not touch a running upload; its changes
are kept when the platform reports a failure to close. -/
def Obligations.LinkCloseDiscardsTheFragment : Prop :=
  ∀ s : State,
    (s.linkOpen = false → exec .linkClose s = .refused .linkClosed) ∧
    (s.linkOpen = true → s.answer = .ok → exec .linkClose s = .next
      { s.answeredWith [] with
        linkOpen := false, rxPending := [], rxTimer := .idle, rxQtoReq := false, report := .done }) ∧
    (s.linkOpen = true → ∀ k, s.answer = .fail k → exec .linkClose s = .next
      { s.answeredWith [] with
        linkOpen := false, rxPending := [], rxTimer := .idle, rxQtoReq := false
        report := .raised (.transportError .idle) })

/-- 44_link R192: `LINK.DISC` discards the fragment and fails a running upload, or restart pulse, at once. -/
def Obligations.LinkDiscFailsTheUpload : Prop :=
  ∀ s : State,
    (s.linkOpen = false → exec .linkDisc s = .refused .linkClosed) ∧
    (s.linkOpen = true → s.txStage = .idle → exec .linkDisc s = .next
      { s with linkOpen := false, rxPending := [], rxTimer := .idle, rxQtoReq := false, report := .done }) ∧
    (s.linkOpen = true → s.txStage = .rbPulse → exec .linkDisc s = .next
      { s with
        linkOpen := false, rxPending := [], rxTimer := .idle, rxQtoReq := false
        txErr := .transportError, txStage := .idle, report := .raised (.transportError .rbPulse) }) ∧
    (s.linkOpen = true → s.txStage ≠ .idle → s.txStage ≠ .rbPulse → exec .linkDisc s = .next
      (failedAt s.txStage
        { s with linkOpen := false, rxPending := [], rxTimer := .idle, rxQtoReq := false }))

/-- 44_link R194: `CFG.SET` writes the register its index names and nothing else, each register's row likewise; it is
refused while the sequencer is busy, for an index above 6 and for a chunk size of 0. That `cfg.t_restart` takes every value,
also one not below `cfg.t_down` (00_scope R6, 10_state R29), follows R194, which checks nothing there: the model's choice,
log entry 22. -/
def Obligations.CfgSetWritesOneRegister : Prop :=
  ∀ (s : State) (v : Word),
    (s.txStage ≠ .idle → (∀ idx, exec (.cfgSet idx v) s = .refused .sequencerBusy) ∧
      ∀ i ∈ [Instr.cfgSetTDown v, .cfgSetTSettle v, .cfgSetTGap v, .cfgSetChunk v, .cfgSetTSample v, .cfgSetTQuiet v,
        .cfgSetTRestart v], exec i s = .refused .sequencerBusy) ∧
    (s.txStage = .idle →
      (∀ i ∈ [Instr.cfgSet 0 v, .cfgSetTDown v], exec i s = .next { s with cfgTDown := v, report := .done }) ∧
      (∀ i ∈ [Instr.cfgSet 1 v, .cfgSetTSettle v], exec i s = .next { s with cfgTSettle := v, report := .done }) ∧
      (∀ i ∈ [Instr.cfgSet 2 v, .cfgSetTGap v], exec i s = .next { s with cfgTGap := v, report := .done }) ∧
      (v ≠ 0 → ∀ i ∈ [Instr.cfgSet 3 v, .cfgSetChunk v], exec i s = .next { s with cfgChunk := v, report := .done }) ∧
      (∀ i ∈ [Instr.cfgSet 4 v, .cfgSetTSample v], exec i s = .next { s with cfgTSample := v, report := .done }) ∧
      (∀ i ∈ [Instr.cfgSet 5 v, .cfgSetTQuiet v], exec i s = .next { s with cfgTQuiet := v, report := .done }) ∧
      (∀ i ∈ [Instr.cfgSet 6 v, .cfgSetTRestart v], exec i s = .next { s with cfgTRestart := v, report := .done }) ∧
      exec (.cfgSet 3 0) s = .refused .zeroChunk ∧ exec (.cfgSetChunk 0) s = .refused .zeroChunk ∧
      ∀ idx : Byte, 6 < idx.toNat → exec (.cfgSet idx v) s = .refused .noSuchRegister)

/-! ## The rows that are no operation -/

/-- The frame's fields in wire order (30_encoding R60): the magic big-endian, the size little-endian, and in a built frame
the checksum little-endian; while there is no frame the checksum field is a draw, about which nothing is said. That a field
row is a step that reports its bytes is the model's choice, log entry 16. -/
def Obligations.FrameFieldRowsReportTheirBytes : Prop :=
  ∀ s : State,
    exec .frameMagic s = .next { s with report := .bytes [0xDE, 0xAD, 0xBE, 0xEF] } ∧
    exec .frameSize s = .next
      { s with
        report := .bytes
          [s.frmSize.setWidth 8, (s.frmSize >>> 8).setWidth 8, (s.frmSize >>> 16).setWidth 8,
            (s.frmSize >>> 24).setWidth 8] } ∧
    (s.frmValid = true → exec .frameChecksum s = .next
      { s with
        report := .bytes
          [s.frmCksum.setWidth 8, (s.frmCksum >>> 8).setWidth 8, (s.frmCksum >>> 16).setWidth 8,
            (s.frmCksum >>> 24).setWidth 8] }) ∧
    (s.frmValid = false → ∃ v, exec .frameChecksum s =
      .next { s with draws := s.draws + 1, report := .bytes (le32 v) })

/-- The numbers of the code sets (30_encoding R73, R75, R76; 60_exceptions R200). That a code row is a step that reports
its number and changes nothing else is the model's choice, log entry 17. -/
def Obligations.CodeRowsReportTheirNumbers : Prop :=
  ∀ (s : State) (i : Instr) (n : Word),
    (i, n) ∈ [(Instr.sevDefault, (0 : Word)), (.sevDebug, 1), (.sevInfo, 2), (.sevWarn, 3), (.sevError, 4),
      (.stageIdle, 0), (.stageRstLow, 1), (.stageRstSettle, 2), (.stageMagic, 3), (.stageGapM, 4), (.stageSize, 5),
      (.stageGapS, 6), (.stagePayload, 7), (.stageCksum, 8), (.stageRbPulse, 9),
      (.statusNone, 0), (.statusRun, 1), (.statusOk, 2), (.statusFail, 3),
      (.errNone, 0), (.errParseError, 1), (.errEmptyImageError, 2), (.errIoError, 3), (.errTransportError, 4)] →
    exec i s = .next { s with report := .word n }

/-! ## Issuing and encoding -/

/-- A step runs the decoded operation and takes it from the queue; with nothing issued, or with an item that is no
operation, the step is refused (30_encoding R78: "Every selector not in the table is unassigned; issuing one is
refused"). -/
def Obligations.StepRunsTheIssuedOperation : Prop :=
  ∀ s : State,
    (s.issue = [] → step s = .refused .noOperation) ∧
    ∀ it rest, s.issue = it :: rest →
      (∀ i, decode it = .ok i → step s = exec i { s with issue := rest }) ∧
      (∀ e, decode it = .error e → step s = .refused (.undecodable e))

/-- Decode and encode agree: every operation, with every operand, is what its encoding decodes to. -/
def Obligations.DecodeInvertsEncode : Prop :=
  ∀ i : Instr, decode (encode i) = .ok i

/-- Every item has at most one meaning and every meaning one item: what decodes to an operation is its encoding. -/
def Obligations.EncodeInvertsDecode : Prop :=
  ∀ (it : IssueItem) (i : Instr), decode it = .ok i → encode i = it

/-- A few words of 30_encoding R78 and an unassigned selector, written out bit by bit. -/
def Obligations.SelectorWordsDecode : Prop :=
  decode ⟨.selector, [0b00000000]⟩ = .ok .cksInit ∧
    decode ⟨.selector, [0b00110001]⟩ = .ok (.txUpload true) ∧
    decode ⟨.selector, [0b00100000, 0x68, 0x69]⟩ = .ok (.rxBytes [0x68, 0x69]) ∧
    decode ⟨.selector, [0b01010000, 3, 0x00, 0x01, 0x00, 0x00]⟩ = .ok (.cfgSet 3 256) ∧
    decode ⟨.selector, [0b00000011]⟩ = .error (.unassignedSelector 3)

/-- The reset values that 10_state R35 gives. -/
def Obligations.ResetValues : Prop :=
  ∀ (p : Params) (q r : Word) (s : State), s = State.reset ∨ s = State.resetWith p q r →
    s.crc = 0xFFFFFFFF ∧ s.frmValid = false ∧ s.frmSize = 0 ∧ s.txStage = .idle ∧ s.txStatus = .none ∧ s.txSent = 0 ∧
      s.txProgress = 0 ∧ s.txRbu = false ∧ s.txErr.code = 0 ∧ s.txFailStage = .idle ∧ s.lineA = .inactive ∧
      s.lineB = .inactive ∧ s.cfgTDown = 100 ∧ s.cfgTSettle = 100 ∧ s.cfgTGap = 10 ∧ s.cfgChunk = 1024 ∧
      s.cfgTSample = 250 ∧ s.linkOpen = false ∧ s.rxPending = [] ∧ s.rxTimer = .idle ∧ s.rxQtoReq = false ∧
      s.msgs = [] ∧ s.wire = []

/-! ## The voltages on the control lines -/

/-- 00_scope R6, 10_state R28: the voltages. `ACTIVE` on line A is logical low and on line B the parameter `LINE_B_ACTIVE`;
an inactive line is at the other level, the model's choice, log entry 27. So the reset pulse of stage `RST_LOW` drives line
A low, and `TX.RESTART` drives line B to `LINE_B_ACTIVE`. -/
def Obligations.LineVoltages : Prop :=
  ∀ s : State,
    (s.lineA = .active → s.lineAVoltage = .low) ∧ (s.lineA = .inactive → s.lineAVoltage = .high) ∧
    (s.lineB = .active → s.lineBVoltage = s.params.lineBActive) ∧
    (s.lineB = .inactive → s.lineBVoltage ≠ s.params.lineBActive) ∧
    (s.linkOpen = true → s.answer = .ok →
      (s.txStage = .rstLow → ∃ t, exec .txStep s = .next t ∧ t.lineAVoltage = .low) ∧
      (s.txStage = .rstSettle → ∃ t, exec .txStep s = .next t ∧ t.lineAVoltage = .high) ∧
      (s.txStage = .idle → ∃ t, exec .txRestart s = .next t ∧ t.lineBVoltage = s.params.lineBActive) ∧
      (s.txStage = .rbPulse → ∃ t, exec .txStep s = .next t ∧ t.lineBVoltage ≠ s.params.lineBActive))
end

