-- ==== Sys2Proof/Laws/Checksum.lean ====
section
/-! SUPPORT. The accumulator over sequences of bytes. -/

namespace Sys2Proof.Machine

@[simp] theorem crcBytes_nil (poly crc : Word) : crcBytes poly crc [] = crc := rfl

@[simp] theorem crcBytes_cons (poly crc : Word) (b : Byte) (bs : List Byte) :
    crcBytes poly crc (b :: bs) = crcBytes poly (crcByte poly crc b) bs := rfl

theorem crcBytes_append (poly crc : Word) (xs ys : List Byte) :
    crcBytes poly crc (xs ++ ys) = crcBytes poly (crcBytes poly crc xs) ys := List.foldl_append

/-- The recurrence of 40_crc R90 is linear over exclusive or. -/
theorem crcShift_xor (poly x y : Word) : crcShift poly (x ^^^ y) = crcShift poly x ^^^ crcShift poly y := by
  unfold crcShift
  rw [BitVec.getLsbD_xor, BitVec.ushiftRight_xor_distrib]
  cases x.getLsbD 0 <;> cases y.getLsbD 0 <;> simp only [Bool.xor_true, Bool.xor_false, Bool.not_false, Bool.not_true,
    if_true, if_false, Bool.false_eq_true]
  · ac_rfl
  · ac_rfl
  · rw [show x >>> 1 ^^^ poly ^^^ (y >>> 1 ^^^ poly) = x >>> 1 ^^^ y >>> 1 ^^^ (poly ^^^ poly) by ac_rfl, BitVec.xor_self,
      BitVec.xor_zero]

theorem crcShifts_xor (poly : Word) : ∀ (n : Nat) (x y : Word),
    crcShifts poly n (x ^^^ y) = crcShifts poly n x ^^^ crcShifts poly n y := by
  intro n
  induction n with
  | zero => intro x y; rfl
  | succ n ih => intro x y; rw [crcShifts, crcShift_xor, ih]; rfl

theorem le32_length (v : Word) : (le32 v).length = 4 := rfl

theorem be32_length (v : Word) : (be32 v).length = 4 := rfl

end Sys2Proof.Machine
end

