-- ==== Sys2Proof/Laws/Memory.lean ====
section
/-! SUPPORT. What reading and writing `PAY` do: every write keeps the canonical form, a read gives what was last written,
and a write leaves every other address alone. -/

namespace Sys2Proof.Machine

theorem Memory.run_length (bs : List Byte) : ∀ a, (Memory.run a bs).length = bs.length := by
  induction bs with
  | nil => intro a; rfl
  | cons b bs ih => intro a; simp [Memory.run, ih]

theorem Memory.mem_run (bs : List Byte) :
    ∀ (a : Nat) (c : Host.Cell), c ∈ Memory.run a bs ↔ a ≤ c.1 ∧ bs[c.1 - a]? = some c.2 := by
  induction bs with
  | nil => intro a c; simp [Memory.run]
  | cons b bs ih =>
    intro a c
    simp only [Memory.run, List.mem_cons, ih]
    constructor
    · rintro (rfl | ⟨h1, h2⟩)
      · simp
      · refine ⟨by omega, ?_⟩
        have : c.1 - a = (c.1 - (a + 1)) + 1 := by omega
        rw [this]; simpa using h2
    · rintro ⟨h1, h2⟩
      rcases Nat.eq_or_lt_of_le h1 with h | h
      · left
        subst h
        simp at h2
        exact Prod.ext rfl h2.symm
      · right
        refine ⟨h, ?_⟩
        have : c.1 - a = (c.1 - (a + 1)) + 1 := by omega
        rw [this] at h2; simpa using h2

theorem Memory.run_bounds {bs : List Byte} {a : Nat} {c : Host.Cell} (h : c ∈ Memory.run a bs) :
    a ≤ c.1 ∧ c.1 < a + bs.length := by
  obtain ⟨h1, h2⟩ := (Memory.mem_run bs a c).1 h
  obtain ⟨h3, -⟩ := List.getElem?_eq_some_iff.1 h2
  omega

theorem Memory.run_wf (bs : List Byte) : ∀ a, (Memory.run a bs).wf := by
  induction bs with
  | nil => intro a; exact List.Pairwise.nil
  | cons b bs ih =>
    intro a
    refine List.Pairwise.cons ?_ (ih (a + 1))
    intro c hc
    have := (Memory.run_bounds hc).1
    exact this

/-- Writing keeps the canonical form. -/
theorem Memory.writeRun_wf {m : Memory} (h : m.wf) (a : Nat) (bs : List Byte) : (m.writeRun a bs).wf := by
  unfold Memory.writeRun Memory.wf
  rw [List.pairwise_append, List.pairwise_append]
  refine ⟨⟨h.filter _, Memory.run_wf bs a, ?_⟩, h.filter _, ?_⟩
  · intro c hc d hd
    have h1 := (List.mem_filter.1 hc).2
    have h2 := Memory.run_bounds hd
    simp at h1; omega
  · intro c hc d hd
    have h2 := (List.mem_filter.1 hd).2
    simp at h2
    rcases List.mem_append.1 hc with hc | hc
    · have h1 := (List.mem_filter.1 hc).2
      simp at h1; omega
    · have h1 := Memory.run_bounds hc
      omega

theorem Memory.empty_wf : Memory.wf [] := List.Pairwise.nil

/-- In canonical form a read finds exactly the cell that is listed. -/
theorem Memory.read_eq_some {m : Memory} (h : m.wf) (a : Nat) (b : Byte) : m.read a = some b ↔ (a, b) ∈ m := by
  induction m with
  | nil => simp [Memory.read]
  | cons c m ih =>
    obtain ⟨x, y⟩ := c
    have hc := List.pairwise_cons.1 h
    have ih := ih hc.2
    unfold Memory.read at ih ⊢
    rw [List.lookup_cons]
    by_cases hx : a = x
    · subst hx
      simp only [beq_self_eq_true, List.mem_cons, Prod.mk.injEq, true_and]
      constructor
      · intro e; left; simpa using e.symm
      · rintro (e | e)
        · simp [e]
        · have := hc.1 _ e; simp at this
    · have : (a == x) = false := by simpa using hx
      simp [this, hx, ih]

theorem Memory.mem_writeRun (m : Memory) (a : Nat) (bs : List Byte) (c : Host.Cell) :
    c ∈ m.writeRun a bs ↔ (c ∈ m ∧ (c.1 < a ∨ a + bs.length ≤ c.1)) ∨ c ∈ Memory.run a bs := by
  unfold Memory.writeRun
  simp only [List.mem_append, List.mem_filter, decide_eq_true_eq]
  tauto

/-- A read after a write: the bytes written at their addresses, and everything else as before. -/
theorem Memory.read_writeRun {m : Memory} (h : m.wf) (a : Nat) (bs : List Byte) (x : Nat) :
    (m.writeRun a bs).read x = if a ≤ x ∧ x < a + bs.length then bs[x - a]? else m.read x := by
  apply Option.ext
  intro b
  rw [Memory.read_eq_some (Memory.writeRun_wf h a bs), Memory.mem_writeRun]
  split
  · rename_i hx
    rw [Memory.mem_run]
    constructor
    · rintro (⟨-, h1⟩ | h1)
      · simp only at h1; omega
      · exact h1.2
    · intro h1; right; exact ⟨hx.1, h1⟩
  · rename_i hx
    rw [Memory.read_eq_some h]
    constructor
    · rintro (⟨h1, -⟩ | h1)
      · exact h1
      · exact absurd (Memory.run_bounds h1) (by simpa using hx)
    · intro h1; left; refine ⟨h1, ?_⟩
      simp only; omega

/-- Strictly rising numbers that fill a window are the window. -/
theorem Memory.window_eq {l : List Nat} {a n : Nat} (h : l.Pairwise (· < ·)) (hl : l.length = n)
    (hb : ∀ x ∈ l, a ≤ x ∧ x < a + n) : l = List.range' a n := by
  have hnd : l.Nodup := h.imp (fun h => Nat.ne_of_lt h)
  have hsub : l ⊆ List.range' a n := fun x hx => by
    have := hb x hx
    rw [List.mem_range'_1]; exact this
  have hp : l.Perm (List.range' a n) := by
    apply (hnd.subperm hsub).perm_of_length_le
    simp [hl]
  exact hp.eq_of_pairwise (fun _ _ _ _ h1 h2 => absurd h1 (by omega)) h List.pairwise_lt_range'

/-- A run that is read is the bytes read one by one. -/
theorem Memory.readRun_eq_some {m : Memory} (h : m.wf) (a n : Nat) (bs : List Byte) :
    m.readRun a n = some bs ↔ bs.length = n ∧ ∀ i < n, m.read (a + i) = bs[i]? := by
  unfold Memory.readRun
  set cells := m.filter (fun c => decide (a ≤ c.1) && decide (c.1 < a + n)) with hcells
  have hmem : ∀ c, c ∈ cells ↔ c ∈ m ∧ a ≤ c.1 ∧ c.1 < a + n := by
    intro c; simp [hcells, List.mem_filter]
  have hsorted : cells.Pairwise (fun c d => c.1 < d.1) := h.filter _
  constructor
  · intro hr
    simp only at hr
    split at hr
    · rename_i hlen
      have hbs : cells.map Prod.snd = bs := by simpa using hr
      have hwin : cells.map Prod.fst = List.range' a n := by
        apply Memory.window_eq
        · exact List.pairwise_map.2 hsorted
        · simpa using hlen
        · intro x hx
          obtain ⟨c, hc, rfl⟩ := List.mem_map.1 hx
          exact ((hmem c).1 hc).2
      refine ⟨by rw [← hbs]; simpa using hlen, fun i hi => ?_⟩
      have hi' : i < cells.length := by omega
      have h1 : (cells.map Prod.fst)[i]? = some (a + i) := by
        rw [hwin]; simp [hi]
      have hci : cells[i]? = some cells[i] := List.getElem?_eq_getElem hi'
      have h2 : cells[i].1 = a + i := by simpa [hci] using h1
      have h3 : bs[i]? = some cells[i].2 := by rw [← hbs]; simp [hci]
      rw [h3, Memory.read_eq_some h, ← h2]
      exact ((hmem _).1 (List.getElem_mem hi')).1
    · cases hr
  · rintro ⟨hlen, hread⟩
    have hrun : cells = Memory.run a bs := by
      have hp : cells.Perm (Memory.run a bs) := by
        apply (List.perm_ext_iff_of_nodup _ _).2
        · intro c
          rw [hmem, Memory.mem_run]
          constructor
          · rintro ⟨h1, h2, h3⟩
            refine ⟨h2, ?_⟩
            rw [← hread (c.1 - a) (by omega), show a + (c.1 - a) = c.1 by omega]
            exact (Memory.read_eq_some h _ _).2 h1
          · rintro ⟨h1, h2⟩
            obtain ⟨h3, -⟩ := List.getElem?_eq_some_iff.1 h2
            refine ⟨?_, h1, by omega⟩
            rw [← hread (c.1 - a) (by omega), show a + (c.1 - a) = c.1 by omega] at h2
            exact (Memory.read_eq_some h _ _).1 h2
        · exact hsorted.imp (fun h e => by rw [e] at h; exact Nat.lt_irrefl _ h)
        · exact (Memory.run_wf bs a).imp (fun h e => by rw [e] at h; exact Nat.lt_irrefl _ h)
      exact hp.eq_of_pairwise (fun _ _ _ _ h1 h2 => absurd h1 (by omega)) hsorted (Memory.run_wf bs a)
    have hsnd : ∀ (l : List Byte) (k : Nat), (Memory.run k l).map Prod.snd = l := by
      intro l
      induction l with
      | nil => intro k; rfl
      | cons b l ih => intro k; simp [Memory.run, ih]
    simp only
    rw [hrun, Memory.run_length, hsnd, if_pos hlen]

/-- What has just been written is what is read back. -/
theorem Memory.readRun_writeRun {m : Memory} (h : m.wf) (a : Nat) (bs : List Byte) :
    (m.writeRun a bs).readRun a bs.length = some bs := by
  rw [Memory.readRun_eq_some (Memory.writeRun_wf h a bs)]
  refine ⟨rfl, fun i hi => ?_⟩
  rw [Memory.read_writeRun h, if_pos (by omega), Nat.add_sub_cancel_left]

/-- A run can be read exactly when each of its bytes can. -/
theorem Memory.readRun_isSome {m : Memory} (h : m.wf) (a n : Nat) :
    (m.readRun a n).isSome = true ↔ ∀ i < n, (m.read (a + i)).isSome = true := by
  constructor
  · intro hs i hi
    obtain ⟨bs, hbs⟩ := Option.isSome_iff_exists.1 hs
    obtain ⟨hl, hr⟩ := (Memory.readRun_eq_some h a n bs).1 hbs
    rw [hr i hi, List.getElem?_eq_getElem (by omega)]; rfl
  · intro hs
    have : ∃ bs, m.readRun a n = some bs := by
      refine ⟨(List.range n).map (fun i => (m.read (a + i)).getD 0), ?_⟩
      rw [Memory.readRun_eq_some h]
      refine ⟨by simp, fun i hi => ?_⟩
      obtain ⟨b, hb⟩ := Option.isSome_iff_exists.1 (hs i hi)
      simp [List.getElem?_map, List.getElem?_range hi, hb]
    obtain ⟨bs, hbs⟩ := this
    simp [hbs]

end Sys2Proof.Machine
end

