-- ==== Sys2Proof/Laws/State.lean ====
section
/-! SUPPORT. One lemma per field per named update of State, so that no later proof unfolds a record update. -/

namespace Sys2Proof.Machine

variable (s : State)

/-! ## reply -/

@[simp] theorem State.reply_crc (r : Report) : (s.reply r).crc = s.crc := rfl
@[simp] theorem State.reply_frmSize (r : Report) : (s.reply r).frmSize = s.frmSize := rfl
@[simp] theorem State.reply_frmCksum (r : Report) : (s.reply r).frmCksum = s.frmCksum := rfl
@[simp] theorem State.reply_frmValid (r : Report) : (s.reply r).frmValid = s.frmValid := rfl
@[simp] theorem State.reply_pay (r : Report) : (s.reply r).pay = s.pay := rfl
@[simp] theorem State.reply_txStage (r : Report) : (s.reply r).txStage = s.txStage := rfl
@[simp] theorem State.reply_txSent (r : Report) : (s.reply r).txSent = s.txSent := rfl
@[simp] theorem State.reply_txRbu (r : Report) : (s.reply r).txRbu = s.txRbu := rfl
@[simp] theorem State.reply_txStatus (r : Report) : (s.reply r).txStatus = s.txStatus := rfl
@[simp] theorem State.reply_txProgress (r : Report) : (s.reply r).txProgress = s.txProgress := rfl
@[simp] theorem State.reply_txFailStage (r : Report) : (s.reply r).txFailStage = s.txFailStage := rfl
@[simp] theorem State.reply_txErr (r : Report) : (s.reply r).txErr = s.txErr := rfl
@[simp] theorem State.reply_txThr (r : Report) : (s.reply r).txThr = s.txThr := rfl
@[simp] theorem State.reply_txEta (r : Report) : (s.reply r).txEta = s.txEta := rfl
@[simp] theorem State.reply_msgs (r : Report) : (s.reply r).msgs = s.msgs := rfl
@[simp] theorem State.reply_wire (r : Report) : (s.reply r).wire = s.wire := rfl
@[simp] theorem State.reply_lineA (r : Report) : (s.reply r).lineA = s.lineA := rfl
@[simp] theorem State.reply_lineB (r : Report) : (s.reply r).lineB = s.lineB := rfl
@[simp] theorem State.reply_cfgTDown (r : Report) : (s.reply r).cfgTDown = s.cfgTDown := rfl
@[simp] theorem State.reply_cfgTSettle (r : Report) : (s.reply r).cfgTSettle = s.cfgTSettle := rfl
@[simp] theorem State.reply_cfgTGap (r : Report) : (s.reply r).cfgTGap = s.cfgTGap := rfl
@[simp] theorem State.reply_cfgChunk (r : Report) : (s.reply r).cfgChunk = s.cfgChunk := rfl
@[simp] theorem State.reply_cfgTSample (r : Report) : (s.reply r).cfgTSample = s.cfgTSample := rfl
@[simp] theorem State.reply_cfgTQuiet (r : Report) : (s.reply r).cfgTQuiet = s.cfgTQuiet := rfl
@[simp] theorem State.reply_cfgTRestart (r : Report) : (s.reply r).cfgTRestart = s.cfgTRestart := rfl
@[simp] theorem State.reply_linkOpen (r : Report) : (s.reply r).linkOpen = s.linkOpen := rfl
@[simp] theorem State.reply_rxPending (r : Report) : (s.reply r).rxPending = s.rxPending := rfl
@[simp] theorem State.reply_rxTimer (r : Report) : (s.reply r).rxTimer = s.rxTimer := rfl
@[simp] theorem State.reply_rxQtoReq (r : Report) : (s.reply r).rxQtoReq = s.rxQtoReq := rfl
@[simp] theorem State.reply_params (r : Report) : (s.reply r).params = s.params := rfl
@[simp] theorem State.reply_report (r : Report) : (s.reply r).report = r := rfl
@[simp] theorem State.reply_issue (r : Report) : (s.reply r).issue = s.issue := rfl
@[simp] theorem State.reply_devAnswers (r : Report) : (s.reply r).devAnswers = s.devAnswers := rfl
@[simp] theorem State.reply_draws (r : Report) : (s.reply r).draws = s.draws := rfl

/-! ## answered -/

@[simp] theorem State.answered_crc : (s.answered).crc = s.crc := rfl
@[simp] theorem State.answered_frmSize : (s.answered).frmSize = s.frmSize := rfl
@[simp] theorem State.answered_frmCksum : (s.answered).frmCksum = s.frmCksum := rfl
@[simp] theorem State.answered_frmValid : (s.answered).frmValid = s.frmValid := rfl
@[simp] theorem State.answered_pay : (s.answered).pay = s.pay := rfl
@[simp] theorem State.answered_txStage : (s.answered).txStage = s.txStage := rfl
@[simp] theorem State.answered_txSent : (s.answered).txSent = s.txSent := rfl
@[simp] theorem State.answered_txRbu : (s.answered).txRbu = s.txRbu := rfl
@[simp] theorem State.answered_txStatus : (s.answered).txStatus = s.txStatus := rfl
@[simp] theorem State.answered_txProgress : (s.answered).txProgress = s.txProgress := rfl
@[simp] theorem State.answered_txFailStage : (s.answered).txFailStage = s.txFailStage := rfl
@[simp] theorem State.answered_txErr : (s.answered).txErr = s.txErr := rfl
@[simp] theorem State.answered_txThr : (s.answered).txThr = s.txThr := rfl
@[simp] theorem State.answered_txEta : (s.answered).txEta = s.txEta := rfl
@[simp] theorem State.answered_msgs : (s.answered).msgs = s.msgs := rfl
@[simp] theorem State.answered_wire : (s.answered).wire = s.wire := rfl
@[simp] theorem State.answered_lineA : (s.answered).lineA = s.lineA := rfl
@[simp] theorem State.answered_lineB : (s.answered).lineB = s.lineB := rfl
@[simp] theorem State.answered_cfgTDown : (s.answered).cfgTDown = s.cfgTDown := rfl
@[simp] theorem State.answered_cfgTSettle : (s.answered).cfgTSettle = s.cfgTSettle := rfl
@[simp] theorem State.answered_cfgTGap : (s.answered).cfgTGap = s.cfgTGap := rfl
@[simp] theorem State.answered_cfgChunk : (s.answered).cfgChunk = s.cfgChunk := rfl
@[simp] theorem State.answered_cfgTSample : (s.answered).cfgTSample = s.cfgTSample := rfl
@[simp] theorem State.answered_cfgTQuiet : (s.answered).cfgTQuiet = s.cfgTQuiet := rfl
@[simp] theorem State.answered_cfgTRestart : (s.answered).cfgTRestart = s.cfgTRestart := rfl
@[simp] theorem State.answered_linkOpen : (s.answered).linkOpen = s.linkOpen := rfl
@[simp] theorem State.answered_rxPending : (s.answered).rxPending = s.rxPending := rfl
@[simp] theorem State.answered_rxTimer : (s.answered).rxTimer = s.rxTimer := rfl
@[simp] theorem State.answered_rxQtoReq : (s.answered).rxQtoReq = s.rxQtoReq := rfl
@[simp] theorem State.answered_params : (s.answered).params = s.params := rfl
@[simp] theorem State.answered_report : (s.answered).report = s.report := rfl
@[simp] theorem State.answered_issue : (s.answered).issue = s.issue := rfl
@[simp] theorem State.answered_devAnswers : (s.answered).devAnswers = s.devAnswers.tail := rfl
@[simp] theorem State.answered_draws :
    (s.answered).draws = if s.devAnswers.isEmpty then s.draws + 1 else s.draws := rfl

/-! ## push -/

@[simp] theorem State.push_crc (e : WireEvent) : (s.push e).crc = s.crc := rfl
@[simp] theorem State.push_frmSize (e : WireEvent) : (s.push e).frmSize = s.frmSize := rfl
@[simp] theorem State.push_frmCksum (e : WireEvent) : (s.push e).frmCksum = s.frmCksum := rfl
@[simp] theorem State.push_frmValid (e : WireEvent) : (s.push e).frmValid = s.frmValid := rfl
@[simp] theorem State.push_pay (e : WireEvent) : (s.push e).pay = s.pay := rfl
@[simp] theorem State.push_txStage (e : WireEvent) : (s.push e).txStage = s.txStage := rfl
@[simp] theorem State.push_txSent (e : WireEvent) : (s.push e).txSent = s.txSent := rfl
@[simp] theorem State.push_txRbu (e : WireEvent) : (s.push e).txRbu = s.txRbu := rfl
@[simp] theorem State.push_txStatus (e : WireEvent) : (s.push e).txStatus = s.txStatus := rfl
@[simp] theorem State.push_txProgress (e : WireEvent) : (s.push e).txProgress = s.txProgress := rfl
@[simp] theorem State.push_txFailStage (e : WireEvent) : (s.push e).txFailStage = s.txFailStage := rfl
@[simp] theorem State.push_txErr (e : WireEvent) : (s.push e).txErr = s.txErr := rfl
@[simp] theorem State.push_txThr (e : WireEvent) : (s.push e).txThr = s.txThr := rfl
@[simp] theorem State.push_txEta (e : WireEvent) : (s.push e).txEta = s.txEta := rfl
@[simp] theorem State.push_msgs (e : WireEvent) : (s.push e).msgs = s.msgs := rfl
@[simp] theorem State.push_wire (e : WireEvent) : (s.push e).wire = s.wire ++ [e] := rfl
@[simp] theorem State.push_lineA (e : WireEvent) : (s.push e).lineA = s.lineA := rfl
@[simp] theorem State.push_lineB (e : WireEvent) : (s.push e).lineB = s.lineB := rfl
@[simp] theorem State.push_cfgTDown (e : WireEvent) : (s.push e).cfgTDown = s.cfgTDown := rfl
@[simp] theorem State.push_cfgTSettle (e : WireEvent) : (s.push e).cfgTSettle = s.cfgTSettle := rfl
@[simp] theorem State.push_cfgTGap (e : WireEvent) : (s.push e).cfgTGap = s.cfgTGap := rfl
@[simp] theorem State.push_cfgChunk (e : WireEvent) : (s.push e).cfgChunk = s.cfgChunk := rfl
@[simp] theorem State.push_cfgTSample (e : WireEvent) : (s.push e).cfgTSample = s.cfgTSample := rfl
@[simp] theorem State.push_cfgTQuiet (e : WireEvent) : (s.push e).cfgTQuiet = s.cfgTQuiet := rfl
@[simp] theorem State.push_cfgTRestart (e : WireEvent) : (s.push e).cfgTRestart = s.cfgTRestart := rfl
@[simp] theorem State.push_linkOpen (e : WireEvent) : (s.push e).linkOpen = s.linkOpen := rfl
@[simp] theorem State.push_rxPending (e : WireEvent) : (s.push e).rxPending = s.rxPending := rfl
@[simp] theorem State.push_rxTimer (e : WireEvent) : (s.push e).rxTimer = s.rxTimer := rfl
@[simp] theorem State.push_rxQtoReq (e : WireEvent) : (s.push e).rxQtoReq = s.rxQtoReq := rfl
@[simp] theorem State.push_params (e : WireEvent) : (s.push e).params = s.params := rfl
@[simp] theorem State.push_report (e : WireEvent) : (s.push e).report = s.report := rfl
@[simp] theorem State.push_issue (e : WireEvent) : (s.push e).issue = s.issue := rfl
@[simp] theorem State.push_devAnswers (e : WireEvent) : (s.push e).devAnswers = s.devAnswers := rfl
@[simp] theorem State.push_draws (e : WireEvent) : (s.push e).draws = s.draws := rfl

/-! ## doWait -/

@[simp] theorem State.doWait_crc (d : CfgReg) : (s.doWait d).crc = s.crc := rfl
@[simp] theorem State.doWait_frmSize (d : CfgReg) : (s.doWait d).frmSize = s.frmSize := rfl
@[simp] theorem State.doWait_frmCksum (d : CfgReg) : (s.doWait d).frmCksum = s.frmCksum := rfl
@[simp] theorem State.doWait_frmValid (d : CfgReg) : (s.doWait d).frmValid = s.frmValid := rfl
@[simp] theorem State.doWait_pay (d : CfgReg) : (s.doWait d).pay = s.pay := rfl
@[simp] theorem State.doWait_txStage (d : CfgReg) : (s.doWait d).txStage = s.txStage := rfl
@[simp] theorem State.doWait_txSent (d : CfgReg) : (s.doWait d).txSent = s.txSent := rfl
@[simp] theorem State.doWait_txRbu (d : CfgReg) : (s.doWait d).txRbu = s.txRbu := rfl
@[simp] theorem State.doWait_txStatus (d : CfgReg) : (s.doWait d).txStatus = s.txStatus := rfl
@[simp] theorem State.doWait_txProgress (d : CfgReg) : (s.doWait d).txProgress = s.txProgress := rfl
@[simp] theorem State.doWait_txFailStage (d : CfgReg) : (s.doWait d).txFailStage = s.txFailStage := rfl
@[simp] theorem State.doWait_txErr (d : CfgReg) : (s.doWait d).txErr = s.txErr := rfl
@[simp] theorem State.doWait_txThr (d : CfgReg) : (s.doWait d).txThr = s.txThr := rfl
@[simp] theorem State.doWait_txEta (d : CfgReg) : (s.doWait d).txEta = s.txEta := rfl
@[simp] theorem State.doWait_msgs (d : CfgReg) : (s.doWait d).msgs = s.msgs := rfl
@[simp] theorem State.doWait_wire (d : CfgReg) : (s.doWait d).wire = s.wire ++ [.wait d (s.cfg d)] := rfl
@[simp] theorem State.doWait_lineA (d : CfgReg) : (s.doWait d).lineA = s.lineA := rfl
@[simp] theorem State.doWait_lineB (d : CfgReg) : (s.doWait d).lineB = s.lineB := rfl
@[simp] theorem State.doWait_cfgTDown (d : CfgReg) : (s.doWait d).cfgTDown = s.cfgTDown := rfl
@[simp] theorem State.doWait_cfgTSettle (d : CfgReg) : (s.doWait d).cfgTSettle = s.cfgTSettle := rfl
@[simp] theorem State.doWait_cfgTGap (d : CfgReg) : (s.doWait d).cfgTGap = s.cfgTGap := rfl
@[simp] theorem State.doWait_cfgChunk (d : CfgReg) : (s.doWait d).cfgChunk = s.cfgChunk := rfl
@[simp] theorem State.doWait_cfgTSample (d : CfgReg) : (s.doWait d).cfgTSample = s.cfgTSample := rfl
@[simp] theorem State.doWait_cfgTQuiet (d : CfgReg) : (s.doWait d).cfgTQuiet = s.cfgTQuiet := rfl
@[simp] theorem State.doWait_cfgTRestart (d : CfgReg) : (s.doWait d).cfgTRestart = s.cfgTRestart := rfl
@[simp] theorem State.doWait_linkOpen (d : CfgReg) : (s.doWait d).linkOpen = s.linkOpen := rfl
@[simp] theorem State.doWait_rxPending (d : CfgReg) : (s.doWait d).rxPending = s.rxPending := rfl
@[simp] theorem State.doWait_rxTimer (d : CfgReg) : (s.doWait d).rxTimer = s.rxTimer := rfl
@[simp] theorem State.doWait_rxQtoReq (d : CfgReg) : (s.doWait d).rxQtoReq = s.rxQtoReq := rfl
@[simp] theorem State.doWait_params (d : CfgReg) : (s.doWait d).params = s.params := rfl
@[simp] theorem State.doWait_report (d : CfgReg) : (s.doWait d).report = s.report := rfl
@[simp] theorem State.doWait_issue (d : CfgReg) : (s.doWait d).issue = s.issue := rfl
@[simp] theorem State.doWait_devAnswers (d : CfgReg) : (s.doWait d).devAnswers = s.devAnswers := rfl
@[simp] theorem State.doWait_draws (d : CfgReg) : (s.doWait d).draws = s.draws := rfl

/-! ## pushFront -/

@[simp] theorem State.pushFront_crc (bs : List Byte) (k : Nat) :
    (s.pushFront bs k).crc = s.crc := by unfold State.pushFront; split <;> rfl
@[simp] theorem State.pushFront_frmSize (bs : List Byte) (k : Nat) :
    (s.pushFront bs k).frmSize = s.frmSize := by unfold State.pushFront; split <;> rfl
@[simp] theorem State.pushFront_frmCksum (bs : List Byte) (k : Nat) :
    (s.pushFront bs k).frmCksum = s.frmCksum := by unfold State.pushFront; split <;> rfl
@[simp] theorem State.pushFront_frmValid (bs : List Byte) (k : Nat) :
    (s.pushFront bs k).frmValid = s.frmValid := by unfold State.pushFront; split <;> rfl
@[simp] theorem State.pushFront_pay (bs : List Byte) (k : Nat) :
    (s.pushFront bs k).pay = s.pay := by unfold State.pushFront; split <;> rfl
@[simp] theorem State.pushFront_txStage (bs : List Byte) (k : Nat) :
    (s.pushFront bs k).txStage = s.txStage := by unfold State.pushFront; split <;> rfl
@[simp] theorem State.pushFront_txSent (bs : List Byte) (k : Nat) :
    (s.pushFront bs k).txSent = s.txSent := by unfold State.pushFront; split <;> rfl
@[simp] theorem State.pushFront_txRbu (bs : List Byte) (k : Nat) :
    (s.pushFront bs k).txRbu = s.txRbu := by unfold State.pushFront; split <;> rfl
@[simp] theorem State.pushFront_txStatus (bs : List Byte) (k : Nat) :
    (s.pushFront bs k).txStatus = s.txStatus := by unfold State.pushFront; split <;> rfl
@[simp] theorem State.pushFront_txProgress (bs : List Byte) (k : Nat) :
    (s.pushFront bs k).txProgress = s.txProgress := by unfold State.pushFront; split <;> rfl
@[simp] theorem State.pushFront_txFailStage (bs : List Byte) (k : Nat) :
    (s.pushFront bs k).txFailStage = s.txFailStage := by unfold State.pushFront; split <;> rfl
@[simp] theorem State.pushFront_txErr (bs : List Byte) (k : Nat) :
    (s.pushFront bs k).txErr = s.txErr := by unfold State.pushFront; split <;> rfl
@[simp] theorem State.pushFront_txThr (bs : List Byte) (k : Nat) :
    (s.pushFront bs k).txThr = s.txThr := by unfold State.pushFront; split <;> rfl
@[simp] theorem State.pushFront_txEta (bs : List Byte) (k : Nat) :
    (s.pushFront bs k).txEta = s.txEta := by unfold State.pushFront; split <;> rfl
@[simp] theorem State.pushFront_msgs (bs : List Byte) (k : Nat) :
    (s.pushFront bs k).msgs = s.msgs := by unfold State.pushFront; split <;> rfl
@[simp] theorem State.pushFront_lineA (bs : List Byte) (k : Nat) :
    (s.pushFront bs k).lineA = s.lineA := by unfold State.pushFront; split <;> rfl
@[simp] theorem State.pushFront_lineB (bs : List Byte) (k : Nat) :
    (s.pushFront bs k).lineB = s.lineB := by unfold State.pushFront; split <;> rfl
@[simp] theorem State.pushFront_cfgTDown (bs : List Byte) (k : Nat) :
    (s.pushFront bs k).cfgTDown = s.cfgTDown := by unfold State.pushFront; split <;> rfl
@[simp] theorem State.pushFront_cfgTSettle (bs : List Byte) (k : Nat) :
    (s.pushFront bs k).cfgTSettle = s.cfgTSettle := by unfold State.pushFront; split <;> rfl
@[simp] theorem State.pushFront_cfgTGap (bs : List Byte) (k : Nat) :
    (s.pushFront bs k).cfgTGap = s.cfgTGap := by unfold State.pushFront; split <;> rfl
@[simp] theorem State.pushFront_cfgChunk (bs : List Byte) (k : Nat) :
    (s.pushFront bs k).cfgChunk = s.cfgChunk := by unfold State.pushFront; split <;> rfl
@[simp] theorem State.pushFront_cfgTSample (bs : List Byte) (k : Nat) :
    (s.pushFront bs k).cfgTSample = s.cfgTSample := by unfold State.pushFront; split <;> rfl
@[simp] theorem State.pushFront_cfgTQuiet (bs : List Byte) (k : Nat) :
    (s.pushFront bs k).cfgTQuiet = s.cfgTQuiet := by unfold State.pushFront; split <;> rfl
@[simp] theorem State.pushFront_cfgTRestart (bs : List Byte) (k : Nat) :
    (s.pushFront bs k).cfgTRestart = s.cfgTRestart := by unfold State.pushFront; split <;> rfl
@[simp] theorem State.pushFront_linkOpen (bs : List Byte) (k : Nat) :
    (s.pushFront bs k).linkOpen = s.linkOpen := by unfold State.pushFront; split <;> rfl
@[simp] theorem State.pushFront_rxPending (bs : List Byte) (k : Nat) :
    (s.pushFront bs k).rxPending = s.rxPending := by unfold State.pushFront; split <;> rfl
@[simp] theorem State.pushFront_rxTimer (bs : List Byte) (k : Nat) :
    (s.pushFront bs k).rxTimer = s.rxTimer := by unfold State.pushFront; split <;> rfl
@[simp] theorem State.pushFront_rxQtoReq (bs : List Byte) (k : Nat) :
    (s.pushFront bs k).rxQtoReq = s.rxQtoReq := by unfold State.pushFront; split <;> rfl
@[simp] theorem State.pushFront_params (bs : List Byte) (k : Nat) :
    (s.pushFront bs k).params = s.params := by unfold State.pushFront; split <;> rfl
@[simp] theorem State.pushFront_report (bs : List Byte) (k : Nat) :
    (s.pushFront bs k).report = s.report := by unfold State.pushFront; split <;> rfl
@[simp] theorem State.pushFront_issue (bs : List Byte) (k : Nat) :
    (s.pushFront bs k).issue = s.issue := by unfold State.pushFront; split <;> rfl
@[simp] theorem State.pushFront_devAnswers (bs : List Byte) (k : Nat) :
    (s.pushFront bs k).devAnswers = s.devAnswers := by unfold State.pushFront; split <;> rfl
@[simp] theorem State.pushFront_draws (bs : List Byte) (k : Nat) :
    (s.pushFront bs k).draws = s.draws := by unfold State.pushFront; split <;> rfl

/-! ## setLine -/

@[simp] theorem State.setLine_crc (x : Line) (l : Level) : (s.setLine x l).crc = s.crc := by cases x <;> rfl
@[simp] theorem State.setLine_frmSize (x : Line) (l : Level) :
    (s.setLine x l).frmSize = s.frmSize := by cases x <;> rfl
@[simp] theorem State.setLine_frmCksum (x : Line) (l : Level) :
    (s.setLine x l).frmCksum = s.frmCksum := by cases x <;> rfl
@[simp] theorem State.setLine_frmValid (x : Line) (l : Level) :
    (s.setLine x l).frmValid = s.frmValid := by cases x <;> rfl
@[simp] theorem State.setLine_pay (x : Line) (l : Level) : (s.setLine x l).pay = s.pay := by cases x <;> rfl
@[simp] theorem State.setLine_txStage (x : Line) (l : Level) :
    (s.setLine x l).txStage = s.txStage := by cases x <;> rfl
@[simp] theorem State.setLine_txSent (x : Line) (l : Level) : (s.setLine x l).txSent = s.txSent := by cases x <;> rfl
@[simp] theorem State.setLine_txRbu (x : Line) (l : Level) : (s.setLine x l).txRbu = s.txRbu := by cases x <;> rfl
@[simp] theorem State.setLine_txStatus (x : Line) (l : Level) :
    (s.setLine x l).txStatus = s.txStatus := by cases x <;> rfl
@[simp] theorem State.setLine_txProgress (x : Line) (l : Level) :
    (s.setLine x l).txProgress = s.txProgress := by cases x <;> rfl
@[simp] theorem State.setLine_txFailStage (x : Line) (l : Level) :
    (s.setLine x l).txFailStage = s.txFailStage := by cases x <;> rfl
@[simp] theorem State.setLine_txErr (x : Line) (l : Level) : (s.setLine x l).txErr = s.txErr := by cases x <;> rfl
@[simp] theorem State.setLine_txThr (x : Line) (l : Level) : (s.setLine x l).txThr = s.txThr := by cases x <;> rfl
@[simp] theorem State.setLine_txEta (x : Line) (l : Level) : (s.setLine x l).txEta = s.txEta := by cases x <;> rfl
@[simp] theorem State.setLine_msgs (x : Line) (l : Level) : (s.setLine x l).msgs = s.msgs := by cases x <;> rfl
@[simp] theorem State.setLine_wire (x : Line) (l : Level) : (s.setLine x l).wire = s.wire := by cases x <;> rfl
@[simp] theorem State.setLine_cfgTDown (x : Line) (l : Level) :
    (s.setLine x l).cfgTDown = s.cfgTDown := by cases x <;> rfl
@[simp] theorem State.setLine_cfgTSettle (x : Line) (l : Level) :
    (s.setLine x l).cfgTSettle = s.cfgTSettle := by cases x <;> rfl
@[simp] theorem State.setLine_cfgTGap (x : Line) (l : Level) :
    (s.setLine x l).cfgTGap = s.cfgTGap := by cases x <;> rfl
@[simp] theorem State.setLine_cfgChunk (x : Line) (l : Level) :
    (s.setLine x l).cfgChunk = s.cfgChunk := by cases x <;> rfl
@[simp] theorem State.setLine_cfgTSample (x : Line) (l : Level) :
    (s.setLine x l).cfgTSample = s.cfgTSample := by cases x <;> rfl
@[simp] theorem State.setLine_cfgTQuiet (x : Line) (l : Level) :
    (s.setLine x l).cfgTQuiet = s.cfgTQuiet := by cases x <;> rfl
@[simp] theorem State.setLine_cfgTRestart (x : Line) (l : Level) :
    (s.setLine x l).cfgTRestart = s.cfgTRestart := by cases x <;> rfl
@[simp] theorem State.setLine_linkOpen (x : Line) (l : Level) :
    (s.setLine x l).linkOpen = s.linkOpen := by cases x <;> rfl
@[simp] theorem State.setLine_rxPending (x : Line) (l : Level) :
    (s.setLine x l).rxPending = s.rxPending := by cases x <;> rfl
@[simp] theorem State.setLine_rxTimer (x : Line) (l : Level) :
    (s.setLine x l).rxTimer = s.rxTimer := by cases x <;> rfl
@[simp] theorem State.setLine_rxQtoReq (x : Line) (l : Level) :
    (s.setLine x l).rxQtoReq = s.rxQtoReq := by cases x <;> rfl
@[simp] theorem State.setLine_params (x : Line) (l : Level) : (s.setLine x l).params = s.params := by cases x <;> rfl
@[simp] theorem State.setLine_report (x : Line) (l : Level) : (s.setLine x l).report = s.report := by cases x <;> rfl
@[simp] theorem State.setLine_issue (x : Line) (l : Level) : (s.setLine x l).issue = s.issue := by cases x <;> rfl
@[simp] theorem State.setLine_devAnswers (x : Line) (l : Level) :
    (s.setLine x l).devAnswers = s.devAnswers := by cases x <;> rfl
@[simp] theorem State.setLine_draws (x : Line) (l : Level) : (s.setLine x l).draws = s.draws := by cases x <;> rfl

/-! ## hangUp -/

@[simp] theorem State.hangUp_crc : (s.hangUp).crc = s.crc := rfl
@[simp] theorem State.hangUp_frmSize : (s.hangUp).frmSize = s.frmSize := rfl
@[simp] theorem State.hangUp_frmCksum : (s.hangUp).frmCksum = s.frmCksum := rfl
@[simp] theorem State.hangUp_frmValid : (s.hangUp).frmValid = s.frmValid := rfl
@[simp] theorem State.hangUp_pay : (s.hangUp).pay = s.pay := rfl
@[simp] theorem State.hangUp_txStage : (s.hangUp).txStage = s.txStage := rfl
@[simp] theorem State.hangUp_txSent : (s.hangUp).txSent = s.txSent := rfl
@[simp] theorem State.hangUp_txRbu : (s.hangUp).txRbu = s.txRbu := rfl
@[simp] theorem State.hangUp_txStatus : (s.hangUp).txStatus = s.txStatus := rfl
@[simp] theorem State.hangUp_txProgress : (s.hangUp).txProgress = s.txProgress := rfl
@[simp] theorem State.hangUp_txFailStage : (s.hangUp).txFailStage = s.txFailStage := rfl
@[simp] theorem State.hangUp_txErr : (s.hangUp).txErr = s.txErr := rfl
@[simp] theorem State.hangUp_txThr : (s.hangUp).txThr = s.txThr := rfl
@[simp] theorem State.hangUp_txEta : (s.hangUp).txEta = s.txEta := rfl
@[simp] theorem State.hangUp_msgs : (s.hangUp).msgs = s.msgs := rfl
@[simp] theorem State.hangUp_wire : (s.hangUp).wire = s.wire := rfl
@[simp] theorem State.hangUp_lineA : (s.hangUp).lineA = s.lineA := rfl
@[simp] theorem State.hangUp_lineB : (s.hangUp).lineB = s.lineB := rfl
@[simp] theorem State.hangUp_cfgTDown : (s.hangUp).cfgTDown = s.cfgTDown := rfl
@[simp] theorem State.hangUp_cfgTSettle : (s.hangUp).cfgTSettle = s.cfgTSettle := rfl
@[simp] theorem State.hangUp_cfgTGap : (s.hangUp).cfgTGap = s.cfgTGap := rfl
@[simp] theorem State.hangUp_cfgChunk : (s.hangUp).cfgChunk = s.cfgChunk := rfl
@[simp] theorem State.hangUp_cfgTSample : (s.hangUp).cfgTSample = s.cfgTSample := rfl
@[simp] theorem State.hangUp_cfgTQuiet : (s.hangUp).cfgTQuiet = s.cfgTQuiet := rfl
@[simp] theorem State.hangUp_cfgTRestart : (s.hangUp).cfgTRestart = s.cfgTRestart := rfl
@[simp] theorem State.hangUp_linkOpen : (s.hangUp).linkOpen = false := rfl
@[simp] theorem State.hangUp_rxPending : (s.hangUp).rxPending = [] := rfl
@[simp] theorem State.hangUp_rxTimer : (s.hangUp).rxTimer = .idle := rfl
@[simp] theorem State.hangUp_rxQtoReq : (s.hangUp).rxQtoReq = false := rfl
@[simp] theorem State.hangUp_params : (s.hangUp).params = s.params := rfl
@[simp] theorem State.hangUp_report : (s.hangUp).report = s.report := rfl
@[simp] theorem State.hangUp_issue : (s.hangUp).issue = s.issue := rfl
@[simp] theorem State.hangUp_devAnswers : (s.hangUp).devAnswers = s.devAnswers := rfl
@[simp] theorem State.hangUp_draws : (s.hangUp).draws = s.draws := rfl

/-! ## loadPayload -/

@[simp] theorem State.loadPayload_crc (bs : List Byte) : (s.loadPayload bs).crc = s.crc := rfl
@[simp] theorem State.loadPayload_frmSize (bs : List Byte) :
    (s.loadPayload bs).frmSize = BitVec.ofNat 32 bs.length := rfl
@[simp] theorem State.loadPayload_frmCksum (bs : List Byte) : (s.loadPayload bs).frmCksum = s.frmCksum := rfl
@[simp] theorem State.loadPayload_frmValid (bs : List Byte) : (s.loadPayload bs).frmValid = false := rfl
@[simp] theorem State.loadPayload_pay (bs : List Byte) : (s.loadPayload bs).pay = s.pay.writeRun 0 bs := rfl
@[simp] theorem State.loadPayload_txStage (bs : List Byte) : (s.loadPayload bs).txStage = s.txStage := rfl
@[simp] theorem State.loadPayload_txSent (bs : List Byte) : (s.loadPayload bs).txSent = s.txSent := rfl
@[simp] theorem State.loadPayload_txRbu (bs : List Byte) : (s.loadPayload bs).txRbu = s.txRbu := rfl
@[simp] theorem State.loadPayload_txStatus (bs : List Byte) : (s.loadPayload bs).txStatus = s.txStatus := rfl
@[simp] theorem State.loadPayload_txProgress (bs : List Byte) : (s.loadPayload bs).txProgress = s.txProgress := rfl
@[simp] theorem State.loadPayload_txFailStage (bs : List Byte) : (s.loadPayload bs).txFailStage = s.txFailStage := rfl
@[simp] theorem State.loadPayload_txErr (bs : List Byte) : (s.loadPayload bs).txErr = .none := rfl
@[simp] theorem State.loadPayload_txThr (bs : List Byte) : (s.loadPayload bs).txThr = s.txThr := rfl
@[simp] theorem State.loadPayload_txEta (bs : List Byte) : (s.loadPayload bs).txEta = s.txEta := rfl
@[simp] theorem State.loadPayload_msgs (bs : List Byte) : (s.loadPayload bs).msgs = s.msgs := rfl
@[simp] theorem State.loadPayload_wire (bs : List Byte) : (s.loadPayload bs).wire = s.wire := rfl
@[simp] theorem State.loadPayload_lineA (bs : List Byte) : (s.loadPayload bs).lineA = s.lineA := rfl
@[simp] theorem State.loadPayload_lineB (bs : List Byte) : (s.loadPayload bs).lineB = s.lineB := rfl
@[simp] theorem State.loadPayload_cfgTDown (bs : List Byte) : (s.loadPayload bs).cfgTDown = s.cfgTDown := rfl
@[simp] theorem State.loadPayload_cfgTSettle (bs : List Byte) : (s.loadPayload bs).cfgTSettle = s.cfgTSettle := rfl
@[simp] theorem State.loadPayload_cfgTGap (bs : List Byte) : (s.loadPayload bs).cfgTGap = s.cfgTGap := rfl
@[simp] theorem State.loadPayload_cfgChunk (bs : List Byte) : (s.loadPayload bs).cfgChunk = s.cfgChunk := rfl
@[simp] theorem State.loadPayload_cfgTSample (bs : List Byte) : (s.loadPayload bs).cfgTSample = s.cfgTSample := rfl
@[simp] theorem State.loadPayload_cfgTQuiet (bs : List Byte) : (s.loadPayload bs).cfgTQuiet = s.cfgTQuiet := rfl
@[simp] theorem State.loadPayload_cfgTRestart (bs : List Byte) : (s.loadPayload bs).cfgTRestart = s.cfgTRestart := rfl
@[simp] theorem State.loadPayload_linkOpen (bs : List Byte) : (s.loadPayload bs).linkOpen = s.linkOpen := rfl
@[simp] theorem State.loadPayload_rxPending (bs : List Byte) : (s.loadPayload bs).rxPending = s.rxPending := rfl
@[simp] theorem State.loadPayload_rxTimer (bs : List Byte) : (s.loadPayload bs).rxTimer = s.rxTimer := rfl
@[simp] theorem State.loadPayload_rxQtoReq (bs : List Byte) : (s.loadPayload bs).rxQtoReq = s.rxQtoReq := rfl
@[simp] theorem State.loadPayload_params (bs : List Byte) : (s.loadPayload bs).params = s.params := rfl
@[simp] theorem State.loadPayload_report (bs : List Byte) : (s.loadPayload bs).report = s.report := rfl
@[simp] theorem State.loadPayload_issue (bs : List Byte) : (s.loadPayload bs).issue = s.issue := rfl
@[simp] theorem State.loadPayload_devAnswers (bs : List Byte) : (s.loadPayload bs).devAnswers = s.devAnswers := rfl
@[simp] theorem State.loadPayload_draws (bs : List Byte) : (s.loadPayload bs).draws = s.draws := rfl

/-! ## sealFrame -/

@[simp] theorem State.sealFrame_crc (bs : List Byte) :
    (s.sealFrame bs).crc = crcBytes s.params.polyR Config.crcInit (le32 s.frmSize ++ bs) := rfl
@[simp] theorem State.sealFrame_frmSize (bs : List Byte) : (s.sealFrame bs).frmSize = s.frmSize := rfl
@[simp] theorem State.sealFrame_frmCksum (bs : List Byte) :
    (s.sealFrame bs).frmCksum = checksum s.params.polyR (le32 s.frmSize ++ bs) := rfl
@[simp] theorem State.sealFrame_frmValid (bs : List Byte) : (s.sealFrame bs).frmValid = true := rfl
@[simp] theorem State.sealFrame_pay (bs : List Byte) : (s.sealFrame bs).pay = s.pay := rfl
@[simp] theorem State.sealFrame_txStage (bs : List Byte) : (s.sealFrame bs).txStage = s.txStage := rfl
@[simp] theorem State.sealFrame_txSent (bs : List Byte) : (s.sealFrame bs).txSent = s.txSent := rfl
@[simp] theorem State.sealFrame_txRbu (bs : List Byte) : (s.sealFrame bs).txRbu = s.txRbu := rfl
@[simp] theorem State.sealFrame_txStatus (bs : List Byte) : (s.sealFrame bs).txStatus = s.txStatus := rfl
@[simp] theorem State.sealFrame_txProgress (bs : List Byte) : (s.sealFrame bs).txProgress = s.txProgress := rfl
@[simp] theorem State.sealFrame_txFailStage (bs : List Byte) : (s.sealFrame bs).txFailStage = s.txFailStage := rfl
@[simp] theorem State.sealFrame_txErr (bs : List Byte) : (s.sealFrame bs).txErr = .none := rfl
@[simp] theorem State.sealFrame_txThr (bs : List Byte) : (s.sealFrame bs).txThr = s.txThr := rfl
@[simp] theorem State.sealFrame_txEta (bs : List Byte) : (s.sealFrame bs).txEta = s.txEta := rfl
@[simp] theorem State.sealFrame_msgs (bs : List Byte) : (s.sealFrame bs).msgs = s.msgs := rfl
@[simp] theorem State.sealFrame_wire (bs : List Byte) : (s.sealFrame bs).wire = s.wire := rfl
@[simp] theorem State.sealFrame_lineA (bs : List Byte) : (s.sealFrame bs).lineA = s.lineA := rfl
@[simp] theorem State.sealFrame_lineB (bs : List Byte) : (s.sealFrame bs).lineB = s.lineB := rfl
@[simp] theorem State.sealFrame_cfgTDown (bs : List Byte) : (s.sealFrame bs).cfgTDown = s.cfgTDown := rfl
@[simp] theorem State.sealFrame_cfgTSettle (bs : List Byte) : (s.sealFrame bs).cfgTSettle = s.cfgTSettle := rfl
@[simp] theorem State.sealFrame_cfgTGap (bs : List Byte) : (s.sealFrame bs).cfgTGap = s.cfgTGap := rfl
@[simp] theorem State.sealFrame_cfgChunk (bs : List Byte) : (s.sealFrame bs).cfgChunk = s.cfgChunk := rfl
@[simp] theorem State.sealFrame_cfgTSample (bs : List Byte) : (s.sealFrame bs).cfgTSample = s.cfgTSample := rfl
@[simp] theorem State.sealFrame_cfgTQuiet (bs : List Byte) : (s.sealFrame bs).cfgTQuiet = s.cfgTQuiet := rfl
@[simp] theorem State.sealFrame_cfgTRestart (bs : List Byte) : (s.sealFrame bs).cfgTRestart = s.cfgTRestart := rfl
@[simp] theorem State.sealFrame_linkOpen (bs : List Byte) : (s.sealFrame bs).linkOpen = s.linkOpen := rfl
@[simp] theorem State.sealFrame_rxPending (bs : List Byte) : (s.sealFrame bs).rxPending = s.rxPending := rfl
@[simp] theorem State.sealFrame_rxTimer (bs : List Byte) : (s.sealFrame bs).rxTimer = s.rxTimer := rfl
@[simp] theorem State.sealFrame_rxQtoReq (bs : List Byte) : (s.sealFrame bs).rxQtoReq = s.rxQtoReq := rfl
@[simp] theorem State.sealFrame_params (bs : List Byte) : (s.sealFrame bs).params = s.params := rfl
@[simp] theorem State.sealFrame_report (bs : List Byte) : (s.sealFrame bs).report = s.report := rfl
@[simp] theorem State.sealFrame_issue (bs : List Byte) : (s.sealFrame bs).issue = s.issue := rfl
@[simp] theorem State.sealFrame_devAnswers (bs : List Byte) : (s.sealFrame bs).devAnswers = s.devAnswers := rfl
@[simp] theorem State.sealFrame_draws (bs : List Byte) : (s.sealFrame bs).draws = s.draws := rfl

/-! ## emitAll -/

@[simp] theorem State.emitAll_crc (ms : List (List Byte)) : (s.emitAll ms).crc = s.crc := rfl
@[simp] theorem State.emitAll_frmSize (ms : List (List Byte)) : (s.emitAll ms).frmSize = s.frmSize := rfl
@[simp] theorem State.emitAll_frmCksum (ms : List (List Byte)) : (s.emitAll ms).frmCksum = s.frmCksum := rfl
@[simp] theorem State.emitAll_frmValid (ms : List (List Byte)) : (s.emitAll ms).frmValid = s.frmValid := rfl
@[simp] theorem State.emitAll_pay (ms : List (List Byte)) : (s.emitAll ms).pay = s.pay := rfl
@[simp] theorem State.emitAll_txStage (ms : List (List Byte)) : (s.emitAll ms).txStage = s.txStage := rfl
@[simp] theorem State.emitAll_txSent (ms : List (List Byte)) : (s.emitAll ms).txSent = s.txSent := rfl
@[simp] theorem State.emitAll_txRbu (ms : List (List Byte)) : (s.emitAll ms).txRbu = s.txRbu := rfl
@[simp] theorem State.emitAll_txStatus (ms : List (List Byte)) : (s.emitAll ms).txStatus = s.txStatus := rfl
@[simp] theorem State.emitAll_txProgress (ms : List (List Byte)) : (s.emitAll ms).txProgress = s.txProgress := rfl
@[simp] theorem State.emitAll_txFailStage (ms : List (List Byte)) : (s.emitAll ms).txFailStage = s.txFailStage := rfl
@[simp] theorem State.emitAll_txErr (ms : List (List Byte)) : (s.emitAll ms).txErr = s.txErr := rfl
@[simp] theorem State.emitAll_txThr (ms : List (List Byte)) : (s.emitAll ms).txThr = s.txThr := rfl
@[simp] theorem State.emitAll_txEta (ms : List (List Byte)) : (s.emitAll ms).txEta = s.txEta := rfl
@[simp] theorem State.emitAll_msgs (ms : List (List Byte)) : (s.emitAll ms).msgs = s.msgs ++ stamp s.draws ms := rfl
@[simp] theorem State.emitAll_wire (ms : List (List Byte)) : (s.emitAll ms).wire = s.wire := rfl
@[simp] theorem State.emitAll_lineA (ms : List (List Byte)) : (s.emitAll ms).lineA = s.lineA := rfl
@[simp] theorem State.emitAll_lineB (ms : List (List Byte)) : (s.emitAll ms).lineB = s.lineB := rfl
@[simp] theorem State.emitAll_cfgTDown (ms : List (List Byte)) : (s.emitAll ms).cfgTDown = s.cfgTDown := rfl
@[simp] theorem State.emitAll_cfgTSettle (ms : List (List Byte)) : (s.emitAll ms).cfgTSettle = s.cfgTSettle := rfl
@[simp] theorem State.emitAll_cfgTGap (ms : List (List Byte)) : (s.emitAll ms).cfgTGap = s.cfgTGap := rfl
@[simp] theorem State.emitAll_cfgChunk (ms : List (List Byte)) : (s.emitAll ms).cfgChunk = s.cfgChunk := rfl
@[simp] theorem State.emitAll_cfgTSample (ms : List (List Byte)) : (s.emitAll ms).cfgTSample = s.cfgTSample := rfl
@[simp] theorem State.emitAll_cfgTQuiet (ms : List (List Byte)) : (s.emitAll ms).cfgTQuiet = s.cfgTQuiet := rfl
@[simp] theorem State.emitAll_cfgTRestart (ms : List (List Byte)) : (s.emitAll ms).cfgTRestart = s.cfgTRestart := rfl
@[simp] theorem State.emitAll_linkOpen (ms : List (List Byte)) : (s.emitAll ms).linkOpen = s.linkOpen := rfl
@[simp] theorem State.emitAll_rxPending (ms : List (List Byte)) : (s.emitAll ms).rxPending = s.rxPending := rfl
@[simp] theorem State.emitAll_rxTimer (ms : List (List Byte)) : (s.emitAll ms).rxTimer = s.rxTimer := rfl
@[simp] theorem State.emitAll_rxQtoReq (ms : List (List Byte)) : (s.emitAll ms).rxQtoReq = s.rxQtoReq := rfl
@[simp] theorem State.emitAll_params (ms : List (List Byte)) : (s.emitAll ms).params = s.params := rfl
@[simp] theorem State.emitAll_report (ms : List (List Byte)) : (s.emitAll ms).report = s.report := rfl
@[simp] theorem State.emitAll_issue (ms : List (List Byte)) : (s.emitAll ms).issue = s.issue := rfl
@[simp] theorem State.emitAll_devAnswers (ms : List (List Byte)) : (s.emitAll ms).devAnswers = s.devAnswers := rfl
@[simp] theorem State.emitAll_draws (ms : List (List Byte)) : (s.emitAll ms).draws = s.draws + ms.length := rfl

/-! ## splitPass -/

@[simp] theorem State.splitPass_crc : (s.splitPass).crc = s.crc := rfl
@[simp] theorem State.splitPass_frmSize : (s.splitPass).frmSize = s.frmSize := rfl
@[simp] theorem State.splitPass_frmCksum : (s.splitPass).frmCksum = s.frmCksum := rfl
@[simp] theorem State.splitPass_frmValid : (s.splitPass).frmValid = s.frmValid := rfl
@[simp] theorem State.splitPass_pay : (s.splitPass).pay = s.pay := rfl
@[simp] theorem State.splitPass_txStage : (s.splitPass).txStage = s.txStage := rfl
@[simp] theorem State.splitPass_txSent : (s.splitPass).txSent = s.txSent := rfl
@[simp] theorem State.splitPass_txRbu : (s.splitPass).txRbu = s.txRbu := rfl
@[simp] theorem State.splitPass_txStatus : (s.splitPass).txStatus = s.txStatus := rfl
@[simp] theorem State.splitPass_txProgress : (s.splitPass).txProgress = s.txProgress := rfl
@[simp] theorem State.splitPass_txFailStage : (s.splitPass).txFailStage = s.txFailStage := rfl
@[simp] theorem State.splitPass_txErr : (s.splitPass).txErr = s.txErr := rfl
@[simp] theorem State.splitPass_txThr : (s.splitPass).txThr = s.txThr := rfl
@[simp] theorem State.splitPass_txEta : (s.splitPass).txEta = s.txEta := rfl
@[simp] theorem State.splitPass_msgs : (s.splitPass).msgs = s.msgs ++ stamp s.draws (splitAll s.rxPending).1 := rfl
@[simp] theorem State.splitPass_wire : (s.splitPass).wire = s.wire := rfl
@[simp] theorem State.splitPass_lineA : (s.splitPass).lineA = s.lineA := rfl
@[simp] theorem State.splitPass_lineB : (s.splitPass).lineB = s.lineB := rfl
@[simp] theorem State.splitPass_cfgTDown : (s.splitPass).cfgTDown = s.cfgTDown := rfl
@[simp] theorem State.splitPass_cfgTSettle : (s.splitPass).cfgTSettle = s.cfgTSettle := rfl
@[simp] theorem State.splitPass_cfgTGap : (s.splitPass).cfgTGap = s.cfgTGap := rfl
@[simp] theorem State.splitPass_cfgChunk : (s.splitPass).cfgChunk = s.cfgChunk := rfl
@[simp] theorem State.splitPass_cfgTSample : (s.splitPass).cfgTSample = s.cfgTSample := rfl
@[simp] theorem State.splitPass_cfgTQuiet : (s.splitPass).cfgTQuiet = s.cfgTQuiet := rfl
@[simp] theorem State.splitPass_cfgTRestart : (s.splitPass).cfgTRestart = s.cfgTRestart := rfl
@[simp] theorem State.splitPass_linkOpen : (s.splitPass).linkOpen = s.linkOpen := rfl
@[simp] theorem State.splitPass_rxPending : (s.splitPass).rxPending = (splitAll s.rxPending).2 := rfl
@[simp] theorem State.splitPass_rxTimer :
    (s.splitPass).rxTimer = if (splitAll s.rxPending).2 = [] then .idle else .armed := rfl
@[simp] theorem State.splitPass_rxQtoReq : (s.splitPass).rxQtoReq = s.rxQtoReq := rfl
@[simp] theorem State.splitPass_params : (s.splitPass).params = s.params := rfl
@[simp] theorem State.splitPass_report : (s.splitPass).report = s.report := rfl
@[simp] theorem State.splitPass_issue : (s.splitPass).issue = s.issue := rfl
@[simp] theorem State.splitPass_devAnswers : (s.splitPass).devAnswers = s.devAnswers := rfl
@[simp] theorem State.splitPass_draws : (s.splitPass).draws = s.draws + (splitAll s.rxPending).1.length := rfl

/-! ## rearm -/

@[simp] theorem State.rearm_crc : (s.rearm).crc = s.crc := by unfold State.rearm; split <;> rfl
@[simp] theorem State.rearm_frmSize : (s.rearm).frmSize = s.frmSize := by unfold State.rearm; split <;> rfl
@[simp] theorem State.rearm_frmCksum : (s.rearm).frmCksum = s.frmCksum := by unfold State.rearm; split <;> rfl
@[simp] theorem State.rearm_frmValid : (s.rearm).frmValid = s.frmValid := by unfold State.rearm; split <;> rfl
@[simp] theorem State.rearm_pay : (s.rearm).pay = s.pay := by unfold State.rearm; split <;> rfl
@[simp] theorem State.rearm_txStage : (s.rearm).txStage = s.txStage := by unfold State.rearm; split <;> rfl
@[simp] theorem State.rearm_txSent : (s.rearm).txSent = s.txSent := by unfold State.rearm; split <;> rfl
@[simp] theorem State.rearm_txRbu : (s.rearm).txRbu = s.txRbu := by unfold State.rearm; split <;> rfl
@[simp] theorem State.rearm_txStatus : (s.rearm).txStatus = s.txStatus := by unfold State.rearm; split <;> rfl
@[simp] theorem State.rearm_txProgress : (s.rearm).txProgress = s.txProgress := by unfold State.rearm; split <;> rfl
@[simp] theorem State.rearm_txFailStage :
    (s.rearm).txFailStage = s.txFailStage := by unfold State.rearm; split <;> rfl
@[simp] theorem State.rearm_txErr : (s.rearm).txErr = s.txErr := by unfold State.rearm; split <;> rfl
@[simp] theorem State.rearm_txThr : (s.rearm).txThr = s.txThr := by unfold State.rearm; split <;> rfl
@[simp] theorem State.rearm_txEta : (s.rearm).txEta = s.txEta := by unfold State.rearm; split <;> rfl
@[simp] theorem State.rearm_msgs : (s.rearm).msgs = s.msgs := by unfold State.rearm; split <;> rfl
@[simp] theorem State.rearm_wire : (s.rearm).wire = s.wire := by unfold State.rearm; split <;> rfl
@[simp] theorem State.rearm_lineA : (s.rearm).lineA = s.lineA := by unfold State.rearm; split <;> rfl
@[simp] theorem State.rearm_lineB : (s.rearm).lineB = s.lineB := by unfold State.rearm; split <;> rfl
@[simp] theorem State.rearm_cfgTDown : (s.rearm).cfgTDown = s.cfgTDown := by unfold State.rearm; split <;> rfl
@[simp] theorem State.rearm_cfgTSettle : (s.rearm).cfgTSettle = s.cfgTSettle := by unfold State.rearm; split <;> rfl
@[simp] theorem State.rearm_cfgTGap : (s.rearm).cfgTGap = s.cfgTGap := by unfold State.rearm; split <;> rfl
@[simp] theorem State.rearm_cfgChunk : (s.rearm).cfgChunk = s.cfgChunk := by unfold State.rearm; split <;> rfl
@[simp] theorem State.rearm_cfgTSample : (s.rearm).cfgTSample = s.cfgTSample := by unfold State.rearm; split <;> rfl
@[simp] theorem State.rearm_cfgTQuiet : (s.rearm).cfgTQuiet = s.cfgTQuiet := by unfold State.rearm; split <;> rfl
@[simp] theorem State.rearm_cfgTRestart :
    (s.rearm).cfgTRestart = s.cfgTRestart := by unfold State.rearm; split <;> rfl
@[simp] theorem State.rearm_linkOpen : (s.rearm).linkOpen = s.linkOpen := by unfold State.rearm; split <;> rfl
@[simp] theorem State.rearm_rxPending : (s.rearm).rxPending = s.rxPending := by unfold State.rearm; split <;> rfl
@[simp] theorem State.rearm_rxQtoReq : (s.rearm).rxQtoReq = s.rxQtoReq := by unfold State.rearm; split <;> rfl
@[simp] theorem State.rearm_params : (s.rearm).params = s.params := by unfold State.rearm; split <;> rfl
@[simp] theorem State.rearm_report : (s.rearm).report = s.report := by unfold State.rearm; split <;> rfl
@[simp] theorem State.rearm_issue : (s.rearm).issue = s.issue := by unfold State.rearm; split <;> rfl
@[simp] theorem State.rearm_devAnswers : (s.rearm).devAnswers = s.devAnswers := by unfold State.rearm; split <;> rfl
@[simp] theorem State.rearm_draws : (s.rearm).draws = s.draws := by unfold State.rearm; split <;> rfl

/-! ## flush -/

@[simp] theorem State.flush_crc : (s.flush).crc = s.crc := by unfold State.flush; split <;> rfl
@[simp] theorem State.flush_frmSize : (s.flush).frmSize = s.frmSize := by unfold State.flush; split <;> rfl
@[simp] theorem State.flush_frmCksum : (s.flush).frmCksum = s.frmCksum := by unfold State.flush; split <;> rfl
@[simp] theorem State.flush_frmValid : (s.flush).frmValid = s.frmValid := by unfold State.flush; split <;> rfl
@[simp] theorem State.flush_pay : (s.flush).pay = s.pay := by unfold State.flush; split <;> rfl
@[simp] theorem State.flush_txStage : (s.flush).txStage = s.txStage := by unfold State.flush; split <;> rfl
@[simp] theorem State.flush_txSent : (s.flush).txSent = s.txSent := by unfold State.flush; split <;> rfl
@[simp] theorem State.flush_txRbu : (s.flush).txRbu = s.txRbu := by unfold State.flush; split <;> rfl
@[simp] theorem State.flush_txStatus : (s.flush).txStatus = s.txStatus := by unfold State.flush; split <;> rfl
@[simp] theorem State.flush_txProgress : (s.flush).txProgress = s.txProgress := by unfold State.flush; split <;> rfl
@[simp] theorem State.flush_txFailStage :
    (s.flush).txFailStage = s.txFailStage := by unfold State.flush; split <;> rfl
@[simp] theorem State.flush_txErr : (s.flush).txErr = s.txErr := by unfold State.flush; split <;> rfl
@[simp] theorem State.flush_txThr : (s.flush).txThr = s.txThr := by unfold State.flush; split <;> rfl
@[simp] theorem State.flush_txEta : (s.flush).txEta = s.txEta := by unfold State.flush; split <;> rfl
@[simp] theorem State.flush_wire : (s.flush).wire = s.wire := by unfold State.flush; split <;> rfl
@[simp] theorem State.flush_lineA : (s.flush).lineA = s.lineA := by unfold State.flush; split <;> rfl
@[simp] theorem State.flush_lineB : (s.flush).lineB = s.lineB := by unfold State.flush; split <;> rfl
@[simp] theorem State.flush_cfgTDown : (s.flush).cfgTDown = s.cfgTDown := by unfold State.flush; split <;> rfl
@[simp] theorem State.flush_cfgTSettle : (s.flush).cfgTSettle = s.cfgTSettle := by unfold State.flush; split <;> rfl
@[simp] theorem State.flush_cfgTGap : (s.flush).cfgTGap = s.cfgTGap := by unfold State.flush; split <;> rfl
@[simp] theorem State.flush_cfgChunk : (s.flush).cfgChunk = s.cfgChunk := by unfold State.flush; split <;> rfl
@[simp] theorem State.flush_cfgTSample : (s.flush).cfgTSample = s.cfgTSample := by unfold State.flush; split <;> rfl
@[simp] theorem State.flush_cfgTQuiet : (s.flush).cfgTQuiet = s.cfgTQuiet := by unfold State.flush; split <;> rfl
@[simp] theorem State.flush_cfgTRestart :
    (s.flush).cfgTRestart = s.cfgTRestart := by unfold State.flush; split <;> rfl
@[simp] theorem State.flush_linkOpen : (s.flush).linkOpen = s.linkOpen := by unfold State.flush; split <;> rfl
@[simp] theorem State.flush_rxTimer : (s.flush).rxTimer = s.rxTimer := by unfold State.flush; split <;> rfl
@[simp] theorem State.flush_rxQtoReq : (s.flush).rxQtoReq = s.rxQtoReq := by unfold State.flush; split <;> rfl
@[simp] theorem State.flush_params : (s.flush).params = s.params := by unfold State.flush; split <;> rfl
@[simp] theorem State.flush_report : (s.flush).report = s.report := by unfold State.flush; split <;> rfl
@[simp] theorem State.flush_issue : (s.flush).issue = s.issue := by unfold State.flush; split <;> rfl
@[simp] theorem State.flush_devAnswers : (s.flush).devAnswers = s.devAnswers := by unfold State.flush; split <;> rfl

/-! ## toStage -/

@[simp] theorem State.toStage_crc (st : Stage) : (s.toStage st).crc = s.crc := rfl
@[simp] theorem State.toStage_frmSize (st : Stage) : (s.toStage st).frmSize = s.frmSize := rfl
@[simp] theorem State.toStage_frmCksum (st : Stage) : (s.toStage st).frmCksum = s.frmCksum := rfl
@[simp] theorem State.toStage_frmValid (st : Stage) : (s.toStage st).frmValid = s.frmValid := rfl
@[simp] theorem State.toStage_pay (st : Stage) : (s.toStage st).pay = s.pay := rfl
@[simp] theorem State.toStage_txStage (st : Stage) : (s.toStage st).txStage = st := rfl
@[simp] theorem State.toStage_txSent (st : Stage) : (s.toStage st).txSent = s.txSent := rfl
@[simp] theorem State.toStage_txRbu (st : Stage) : (s.toStage st).txRbu = s.txRbu := rfl
@[simp] theorem State.toStage_txStatus (st : Stage) : (s.toStage st).txStatus = s.txStatus := rfl
@[simp] theorem State.toStage_txProgress (st : Stage) : (s.toStage st).txProgress = s.txProgress := rfl
@[simp] theorem State.toStage_txFailStage (st : Stage) : (s.toStage st).txFailStage = s.txFailStage := rfl
@[simp] theorem State.toStage_txErr (st : Stage) : (s.toStage st).txErr = s.txErr := rfl
@[simp] theorem State.toStage_txThr (st : Stage) : (s.toStage st).txThr = s.txThr := rfl
@[simp] theorem State.toStage_txEta (st : Stage) : (s.toStage st).txEta = s.txEta := rfl
@[simp] theorem State.toStage_msgs (st : Stage) : (s.toStage st).msgs = s.msgs := rfl
@[simp] theorem State.toStage_wire (st : Stage) : (s.toStage st).wire = s.wire := rfl
@[simp] theorem State.toStage_lineA (st : Stage) : (s.toStage st).lineA = s.lineA := rfl
@[simp] theorem State.toStage_lineB (st : Stage) : (s.toStage st).lineB = s.lineB := rfl
@[simp] theorem State.toStage_cfgTDown (st : Stage) : (s.toStage st).cfgTDown = s.cfgTDown := rfl
@[simp] theorem State.toStage_cfgTSettle (st : Stage) : (s.toStage st).cfgTSettle = s.cfgTSettle := rfl
@[simp] theorem State.toStage_cfgTGap (st : Stage) : (s.toStage st).cfgTGap = s.cfgTGap := rfl
@[simp] theorem State.toStage_cfgChunk (st : Stage) : (s.toStage st).cfgChunk = s.cfgChunk := rfl
@[simp] theorem State.toStage_cfgTSample (st : Stage) : (s.toStage st).cfgTSample = s.cfgTSample := rfl
@[simp] theorem State.toStage_cfgTQuiet (st : Stage) : (s.toStage st).cfgTQuiet = s.cfgTQuiet := rfl
@[simp] theorem State.toStage_cfgTRestart (st : Stage) : (s.toStage st).cfgTRestart = s.cfgTRestart := rfl
@[simp] theorem State.toStage_linkOpen (st : Stage) : (s.toStage st).linkOpen = s.linkOpen := rfl
@[simp] theorem State.toStage_rxPending (st : Stage) : (s.toStage st).rxPending = s.rxPending := rfl
@[simp] theorem State.toStage_rxTimer (st : Stage) : (s.toStage st).rxTimer = s.rxTimer := rfl
@[simp] theorem State.toStage_rxQtoReq (st : Stage) : (s.toStage st).rxQtoReq = s.rxQtoReq := rfl
@[simp] theorem State.toStage_params (st : Stage) : (s.toStage st).params = s.params := rfl
@[simp] theorem State.toStage_report (st : Stage) : (s.toStage st).report = s.report := rfl
@[simp] theorem State.toStage_issue (st : Stage) : (s.toStage st).issue = s.issue := rfl
@[simp] theorem State.toStage_devAnswers (st : Stage) : (s.toStage st).devAnswers = s.devAnswers := rfl
@[simp] theorem State.toStage_draws (st : Stage) : (s.toStage st).draws = s.draws := rfl

/-! ## chunkSent -/

@[simp] theorem State.chunkSent_crc (n : Nat) : (s.chunkSent n).crc = s.crc := rfl
@[simp] theorem State.chunkSent_frmSize (n : Nat) : (s.chunkSent n).frmSize = s.frmSize := rfl
@[simp] theorem State.chunkSent_frmCksum (n : Nat) : (s.chunkSent n).frmCksum = s.frmCksum := rfl
@[simp] theorem State.chunkSent_frmValid (n : Nat) : (s.chunkSent n).frmValid = s.frmValid := rfl
@[simp] theorem State.chunkSent_pay (n : Nat) : (s.chunkSent n).pay = s.pay := rfl
@[simp] theorem State.chunkSent_txStage (n : Nat) :
    (s.chunkSent n).txStage = if BitVec.ofNat 32 (s.txSent.toNat + n) = s.frmSize then .cksum else .payload := rfl
@[simp] theorem State.chunkSent_txSent (n : Nat) :
    (s.chunkSent n).txSent = BitVec.ofNat 32 (s.txSent.toNat + n) := rfl
@[simp] theorem State.chunkSent_txRbu (n : Nat) : (s.chunkSent n).txRbu = s.txRbu := rfl
@[simp] theorem State.chunkSent_txStatus (n : Nat) : (s.chunkSent n).txStatus = s.txStatus := rfl
@[simp] theorem State.chunkSent_txProgress (n : Nat) :
    (s.chunkSent n).txProgress = progressOf (BitVec.ofNat 32 (s.txSent.toNat + n)) s.frmSize := rfl
@[simp] theorem State.chunkSent_txFailStage (n : Nat) : (s.chunkSent n).txFailStage = s.txFailStage := rfl
@[simp] theorem State.chunkSent_txErr (n : Nat) : (s.chunkSent n).txErr = s.txErr := rfl
@[simp] theorem State.chunkSent_txThr (n : Nat) : (s.chunkSent n).txThr = Config.throughput s.draws := rfl
@[simp] theorem State.chunkSent_txEta (n : Nat) : (s.chunkSent n).txEta = Config.remainingTime s.draws := rfl
@[simp] theorem State.chunkSent_msgs (n : Nat) : (s.chunkSent n).msgs = s.msgs := rfl
@[simp] theorem State.chunkSent_wire (n : Nat) : (s.chunkSent n).wire = s.wire := rfl
@[simp] theorem State.chunkSent_lineA (n : Nat) : (s.chunkSent n).lineA = s.lineA := rfl
@[simp] theorem State.chunkSent_lineB (n : Nat) : (s.chunkSent n).lineB = s.lineB := rfl
@[simp] theorem State.chunkSent_cfgTDown (n : Nat) : (s.chunkSent n).cfgTDown = s.cfgTDown := rfl
@[simp] theorem State.chunkSent_cfgTSettle (n : Nat) : (s.chunkSent n).cfgTSettle = s.cfgTSettle := rfl
@[simp] theorem State.chunkSent_cfgTGap (n : Nat) : (s.chunkSent n).cfgTGap = s.cfgTGap := rfl
@[simp] theorem State.chunkSent_cfgChunk (n : Nat) : (s.chunkSent n).cfgChunk = s.cfgChunk := rfl
@[simp] theorem State.chunkSent_cfgTSample (n : Nat) : (s.chunkSent n).cfgTSample = s.cfgTSample := rfl
@[simp] theorem State.chunkSent_cfgTQuiet (n : Nat) : (s.chunkSent n).cfgTQuiet = s.cfgTQuiet := rfl
@[simp] theorem State.chunkSent_cfgTRestart (n : Nat) : (s.chunkSent n).cfgTRestart = s.cfgTRestart := rfl
@[simp] theorem State.chunkSent_linkOpen (n : Nat) : (s.chunkSent n).linkOpen = s.linkOpen := rfl
@[simp] theorem State.chunkSent_rxPending (n : Nat) : (s.chunkSent n).rxPending = s.rxPending := rfl
@[simp] theorem State.chunkSent_rxTimer (n : Nat) : (s.chunkSent n).rxTimer = s.rxTimer := rfl
@[simp] theorem State.chunkSent_rxQtoReq (n : Nat) : (s.chunkSent n).rxQtoReq = s.rxQtoReq := rfl
@[simp] theorem State.chunkSent_params (n : Nat) : (s.chunkSent n).params = s.params := rfl
@[simp] theorem State.chunkSent_report (n : Nat) : (s.chunkSent n).report = s.report := rfl
@[simp] theorem State.chunkSent_issue (n : Nat) : (s.chunkSent n).issue = s.issue := rfl
@[simp] theorem State.chunkSent_devAnswers (n : Nat) : (s.chunkSent n).devAnswers = s.devAnswers := rfl
@[simp] theorem State.chunkSent_draws (n : Nat) : (s.chunkSent n).draws = s.draws + 1 := rfl

/-! ## complete -/

@[simp] theorem State.complete_crc : (s.complete).crc = s.crc := rfl
@[simp] theorem State.complete_frmSize : (s.complete).frmSize = s.frmSize := rfl
@[simp] theorem State.complete_frmCksum : (s.complete).frmCksum = s.frmCksum := rfl
@[simp] theorem State.complete_frmValid : (s.complete).frmValid = false := rfl
@[simp] theorem State.complete_pay : (s.complete).pay = s.pay := rfl
@[simp] theorem State.complete_txStage : (s.complete).txStage = .idle := rfl
@[simp] theorem State.complete_txSent : (s.complete).txSent = s.txSent := rfl
@[simp] theorem State.complete_txRbu : (s.complete).txRbu = s.txRbu := rfl
@[simp] theorem State.complete_txStatus : (s.complete).txStatus = .ok := rfl
@[simp] theorem State.complete_txProgress : (s.complete).txProgress = s.txProgress := rfl
@[simp] theorem State.complete_txFailStage : (s.complete).txFailStage = s.txFailStage := rfl
@[simp] theorem State.complete_txErr : (s.complete).txErr = s.txErr := rfl
@[simp] theorem State.complete_txThr : (s.complete).txThr = s.txThr := rfl
@[simp] theorem State.complete_txEta : (s.complete).txEta = s.txEta := rfl
@[simp] theorem State.complete_msgs : (s.complete).msgs = s.msgs := rfl
@[simp] theorem State.complete_wire : (s.complete).wire = s.wire := rfl
@[simp] theorem State.complete_lineA : (s.complete).lineA = s.lineA := rfl
@[simp] theorem State.complete_lineB : (s.complete).lineB = s.lineB := rfl
@[simp] theorem State.complete_cfgTDown : (s.complete).cfgTDown = s.cfgTDown := rfl
@[simp] theorem State.complete_cfgTSettle : (s.complete).cfgTSettle = s.cfgTSettle := rfl
@[simp] theorem State.complete_cfgTGap : (s.complete).cfgTGap = s.cfgTGap := rfl
@[simp] theorem State.complete_cfgChunk : (s.complete).cfgChunk = s.cfgChunk := rfl
@[simp] theorem State.complete_cfgTSample : (s.complete).cfgTSample = s.cfgTSample := rfl
@[simp] theorem State.complete_cfgTQuiet : (s.complete).cfgTQuiet = s.cfgTQuiet := rfl
@[simp] theorem State.complete_cfgTRestart : (s.complete).cfgTRestart = s.cfgTRestart := rfl
@[simp] theorem State.complete_linkOpen : (s.complete).linkOpen = s.linkOpen := rfl
@[simp] theorem State.complete_rxPending : (s.complete).rxPending = s.rxPending := rfl
@[simp] theorem State.complete_rxTimer : (s.complete).rxTimer = s.rxTimer := rfl
@[simp] theorem State.complete_rxQtoReq : (s.complete).rxQtoReq = s.rxQtoReq := rfl
@[simp] theorem State.complete_params : (s.complete).params = s.params := rfl
@[simp] theorem State.complete_report : (s.complete).report = s.report := rfl
@[simp] theorem State.complete_issue : (s.complete).issue = s.issue := rfl
@[simp] theorem State.complete_devAnswers : (s.complete).devAnswers = s.devAnswers := rfl
@[simp] theorem State.complete_draws : (s.complete).draws = s.draws := rfl

/-! ## beginUpload -/

@[simp] theorem State.beginUpload_crc (r : Bool) : (s.beginUpload r).crc = s.crc := rfl
@[simp] theorem State.beginUpload_frmSize (r : Bool) : (s.beginUpload r).frmSize = s.frmSize := rfl
@[simp] theorem State.beginUpload_frmCksum (r : Bool) : (s.beginUpload r).frmCksum = s.frmCksum := rfl
@[simp] theorem State.beginUpload_frmValid (r : Bool) : (s.beginUpload r).frmValid = s.frmValid := rfl
@[simp] theorem State.beginUpload_pay (r : Bool) : (s.beginUpload r).pay = s.pay := rfl
@[simp] theorem State.beginUpload_txStage (r : Bool) :
    (s.beginUpload r).txStage = if r then .rstLow else .magic := rfl
@[simp] theorem State.beginUpload_txSent (r : Bool) : (s.beginUpload r).txSent = 0 := rfl
@[simp] theorem State.beginUpload_txRbu (r : Bool) : (s.beginUpload r).txRbu = r := rfl
@[simp] theorem State.beginUpload_txStatus (r : Bool) : (s.beginUpload r).txStatus = .run := rfl
@[simp] theorem State.beginUpload_txProgress (r : Bool) : (s.beginUpload r).txProgress = 0 := rfl
@[simp] theorem State.beginUpload_txFailStage (r : Bool) : (s.beginUpload r).txFailStage = s.txFailStage := rfl
@[simp] theorem State.beginUpload_txErr (r : Bool) : (s.beginUpload r).txErr = .none := rfl
@[simp] theorem State.beginUpload_txThr (r : Bool) : (s.beginUpload r).txThr = s.txThr := rfl
@[simp] theorem State.beginUpload_txEta (r : Bool) : (s.beginUpload r).txEta = s.txEta := rfl
@[simp] theorem State.beginUpload_msgs (r : Bool) : (s.beginUpload r).msgs = s.msgs := rfl
@[simp] theorem State.beginUpload_wire (r : Bool) : (s.beginUpload r).wire = s.wire := rfl
@[simp] theorem State.beginUpload_lineA (r : Bool) : (s.beginUpload r).lineA = s.lineA := rfl
@[simp] theorem State.beginUpload_lineB (r : Bool) : (s.beginUpload r).lineB = s.lineB := rfl
@[simp] theorem State.beginUpload_cfgTDown (r : Bool) : (s.beginUpload r).cfgTDown = s.cfgTDown := rfl
@[simp] theorem State.beginUpload_cfgTSettle (r : Bool) : (s.beginUpload r).cfgTSettle = s.cfgTSettle := rfl
@[simp] theorem State.beginUpload_cfgTGap (r : Bool) : (s.beginUpload r).cfgTGap = s.cfgTGap := rfl
@[simp] theorem State.beginUpload_cfgChunk (r : Bool) : (s.beginUpload r).cfgChunk = s.cfgChunk := rfl
@[simp] theorem State.beginUpload_cfgTSample (r : Bool) : (s.beginUpload r).cfgTSample = s.cfgTSample := rfl
@[simp] theorem State.beginUpload_cfgTQuiet (r : Bool) : (s.beginUpload r).cfgTQuiet = s.cfgTQuiet := rfl
@[simp] theorem State.beginUpload_cfgTRestart (r : Bool) : (s.beginUpload r).cfgTRestart = s.cfgTRestart := rfl
@[simp] theorem State.beginUpload_linkOpen (r : Bool) : (s.beginUpload r).linkOpen = s.linkOpen := rfl
@[simp] theorem State.beginUpload_rxPending (r : Bool) : (s.beginUpload r).rxPending = s.rxPending := rfl
@[simp] theorem State.beginUpload_rxTimer (r : Bool) : (s.beginUpload r).rxTimer = s.rxTimer := rfl
@[simp] theorem State.beginUpload_rxQtoReq (r : Bool) : (s.beginUpload r).rxQtoReq = s.rxQtoReq := rfl
@[simp] theorem State.beginUpload_params (r : Bool) : (s.beginUpload r).params = s.params := rfl
@[simp] theorem State.beginUpload_report (r : Bool) : (s.beginUpload r).report = s.report := rfl
@[simp] theorem State.beginUpload_issue (r : Bool) : (s.beginUpload r).issue = s.issue := rfl
@[simp] theorem State.beginUpload_devAnswers (r : Bool) : (s.beginUpload r).devAnswers = s.devAnswers := rfl
@[simp] theorem State.beginUpload_draws (r : Bool) : (s.beginUpload r).draws = s.draws := rfl

/-! ## setCfg -/

@[simp] theorem State.setCfg_crc (v : Word) (r : CfgReg) : (s.setCfg v r).crc = s.crc := by cases r <;> rfl
@[simp] theorem State.setCfg_frmSize (v : Word) (r : CfgReg) :
    (s.setCfg v r).frmSize = s.frmSize := by cases r <;> rfl
@[simp] theorem State.setCfg_frmCksum (v : Word) (r : CfgReg) :
    (s.setCfg v r).frmCksum = s.frmCksum := by cases r <;> rfl
@[simp] theorem State.setCfg_frmValid (v : Word) (r : CfgReg) :
    (s.setCfg v r).frmValid = s.frmValid := by cases r <;> rfl
@[simp] theorem State.setCfg_pay (v : Word) (r : CfgReg) : (s.setCfg v r).pay = s.pay := by cases r <;> rfl
@[simp] theorem State.setCfg_txStage (v : Word) (r : CfgReg) :
    (s.setCfg v r).txStage = s.txStage := by cases r <;> rfl
@[simp] theorem State.setCfg_txSent (v : Word) (r : CfgReg) : (s.setCfg v r).txSent = s.txSent := by cases r <;> rfl
@[simp] theorem State.setCfg_txRbu (v : Word) (r : CfgReg) : (s.setCfg v r).txRbu = s.txRbu := by cases r <;> rfl
@[simp] theorem State.setCfg_txStatus (v : Word) (r : CfgReg) :
    (s.setCfg v r).txStatus = s.txStatus := by cases r <;> rfl
@[simp] theorem State.setCfg_txProgress (v : Word) (r : CfgReg) :
    (s.setCfg v r).txProgress = s.txProgress := by cases r <;> rfl
@[simp] theorem State.setCfg_txFailStage (v : Word) (r : CfgReg) :
    (s.setCfg v r).txFailStage = s.txFailStage := by cases r <;> rfl
@[simp] theorem State.setCfg_txErr (v : Word) (r : CfgReg) : (s.setCfg v r).txErr = s.txErr := by cases r <;> rfl
@[simp] theorem State.setCfg_txThr (v : Word) (r : CfgReg) : (s.setCfg v r).txThr = s.txThr := by cases r <;> rfl
@[simp] theorem State.setCfg_txEta (v : Word) (r : CfgReg) : (s.setCfg v r).txEta = s.txEta := by cases r <;> rfl
@[simp] theorem State.setCfg_msgs (v : Word) (r : CfgReg) : (s.setCfg v r).msgs = s.msgs := by cases r <;> rfl
@[simp] theorem State.setCfg_wire (v : Word) (r : CfgReg) : (s.setCfg v r).wire = s.wire := by cases r <;> rfl
@[simp] theorem State.setCfg_lineA (v : Word) (r : CfgReg) : (s.setCfg v r).lineA = s.lineA := by cases r <;> rfl
@[simp] theorem State.setCfg_lineB (v : Word) (r : CfgReg) : (s.setCfg v r).lineB = s.lineB := by cases r <;> rfl
@[simp] theorem State.setCfg_linkOpen (v : Word) (r : CfgReg) :
    (s.setCfg v r).linkOpen = s.linkOpen := by cases r <;> rfl
@[simp] theorem State.setCfg_rxPending (v : Word) (r : CfgReg) :
    (s.setCfg v r).rxPending = s.rxPending := by cases r <;> rfl
@[simp] theorem State.setCfg_rxTimer (v : Word) (r : CfgReg) :
    (s.setCfg v r).rxTimer = s.rxTimer := by cases r <;> rfl
@[simp] theorem State.setCfg_rxQtoReq (v : Word) (r : CfgReg) :
    (s.setCfg v r).rxQtoReq = s.rxQtoReq := by cases r <;> rfl
@[simp] theorem State.setCfg_params (v : Word) (r : CfgReg) : (s.setCfg v r).params = s.params := by cases r <;> rfl
@[simp] theorem State.setCfg_report (v : Word) (r : CfgReg) : (s.setCfg v r).report = s.report := by cases r <;> rfl
@[simp] theorem State.setCfg_issue (v : Word) (r : CfgReg) : (s.setCfg v r).issue = s.issue := by cases r <;> rfl
@[simp] theorem State.setCfg_devAnswers (v : Word) (r : CfgReg) :
    (s.setCfg v r).devAnswers = s.devAnswers := by cases r <;> rfl
@[simp] theorem State.setCfg_draws (v : Word) (r : CfgReg) : (s.setCfg v r).draws = s.draws := by cases r <;> rfl

/-! ## The changed fields of the updates with cases -/

@[simp] theorem State.pushFront_wire (bs : List Byte) (k : Nat) :
    (s.pushFront bs k).wire = s.wire ++ (if bs.take k = [] then [] else [.write (bs.take k)]) := by
  unfold State.pushFront; split <;> simp [*]
@[simp] theorem State.setLine_a_lineA (l : Level) : (s.setLine .a l).lineA = l := rfl
@[simp] theorem State.setLine_a_lineB (l : Level) : (s.setLine .a l).lineB = s.lineB := rfl
@[simp] theorem State.setLine_b_lineA (l : Level) : (s.setLine .b l).lineA = s.lineA := rfl
@[simp] theorem State.setLine_b_lineB (l : Level) : (s.setLine .b l).lineB = l := rfl
@[simp] theorem State.rearm_rxTimer : s.rearm.rxTimer = if s.rxPending = [] then s.rxTimer else .armed := by
  unfold State.rearm; split <;> simp [*]
@[simp] theorem State.flush_msgs :
    s.flush.msgs = s.msgs ++ (if s.rxPending = [] then [] else stamp s.draws [s.rxPending]) := by
  unfold State.flush; split <;> simp [*]
@[simp] theorem State.flush_draws : s.flush.draws = s.draws + (if s.rxPending = [] then 0 else 1) := by
  unfold State.flush; split <;> simp [*]
@[simp] theorem State.flush_rxPending : s.flush.rxPending = [] := by
  unfold State.flush; split <;> simp [*]
@[simp] theorem State.setCfg_cfg (v : Word) (r q : CfgReg) :
    (s.setCfg v r).cfg q = if q = r then v else s.cfg q := by
  cases r <;> cases q <;> rfl

end Sys2Proof.Machine
end

