-- ==== Sys2Proof/Laws/Ops.lean ====
section
/-! SUPPORT. For each shared operation, once, everything it can do. The rest of a proof cites these and unfolds nothing. -/

namespace Sys2Proof.Machine

variable {s t : State}

/-! ## The ends of an operation -/

theorem finish_next : finish s = .next t ↔ t = s.reply .done := by
  unfold finish; constructor
  · intro h; exact (Host.Outcome.next.inj h).symm
  · rintro rfl; rfl

theorem raise_next {e : SblError} : raise e s = .next t ↔ t = s.reply (.raised e) := by
  unfold raise; constructor
  · intro h; exact (Host.Outcome.next.inj h).symm
  · rintro rfl; rfl

/-- `fail(S)` of an upload's stage, 43_transmit R171. -/
theorem failAt_uploading {stage : Stage} (h : stage.uploading = true) :
    failAt stage s = .next ({ s with
      txStatus := .fail, txFailStage := stage, txErr := .transportError, txStage := .idle,
      frmValid := false, report := .raised (.transportError stage) }) := by
  cases stage <;> first | rfl | cases h

/-- `fail(RB_PULSE)`, 43_transmit R171. -/
theorem failAt_rbPulse : failAt .rbPulse s = .next ({ s with
    txErr := .transportError, txStage := .idle, report := .raised (.transportError .rbPulse) }) := rfl

/-! ## DEV's answers -/

theorem State.answer_cons {a : DevAnswer} {rest : List DevAnswer} (h : s.devAnswers = a :: rest) : s.answer = a := by
  simp [State.answer, h]

theorem State.answered_cons {a : DevAnswer} {rest : List DevAnswer} (h : s.devAnswers = a :: rest) :
    s.answered = { s with devAnswers := rest } := by
  simp [State.answered, h]

/-! ## The primitives of the transmit path -/

/-- A write that succeeds, 43_transmit R170: the link is open, DEV said `Ok`, and all bytes are on the wire. -/
theorem State.chanWrite_true {bytes : List Byte} :
    s.chanWrite bytes = (true, t) ↔
      s.linkOpen = true ∧ s.answer = .ok ∧ t = s.answered.push (.write bytes) := by
  unfold State.chanWrite
  by_cases ho : s.linkOpen = true
  · rw [if_pos ho]
    cases ha : s.answer with
    | ok => exact ⟨fun h => ⟨ho, rfl, (Prod.mk.inj h).2.symm⟩, fun h => by rw [h.2.2]⟩
    | fail k => exact ⟨fun h => (Bool.false_ne_true (Prod.mk.inj h).1).elim, fun h => nomatch h.2.1⟩
  · rw [if_neg ho]
    exact ⟨fun h => (Bool.false_ne_true (Prod.mk.inj h).1).elim, fun h => (ho h.1).elim⟩

/-- A write that fails, 43_transmit R170: on a closed link nothing happens; on an open one DEV said `Fail(k)` and the
front of the bytes is on the wire. -/
theorem State.chanWrite_false {bytes : List Byte} :
    s.chanWrite bytes = (false, t) ↔
      (s.linkOpen = false ∧ t = s) ∨
        (s.linkOpen = true ∧ ∃ k, s.answer = .fail k ∧ t = s.answered.pushFront bytes k) := by
  unfold State.chanWrite
  by_cases ho : s.linkOpen = true
  · rw [if_pos ho]
    cases ha : s.answer with
    | ok =>
      refine ⟨fun h => (Bool.false_ne_true (Prod.mk.inj h).1.symm).elim, ?_⟩
      rintro (⟨h, -⟩ | ⟨-, k, h, -⟩)
      · rw [ho] at h; cases h
      · cases h
    | fail k =>
      refine ⟨fun h => .inr ⟨ho, k, rfl, (Prod.mk.inj h).2.symm⟩, ?_⟩
      rintro (⟨h, -⟩ | ⟨-, j, h, rfl⟩)
      · rw [ho] at h; cases h
      · cases h; rfl
  · rw [if_neg ho]
    have hc : s.linkOpen = false := by simpa using ho
    refine ⟨fun h => .inl ⟨hc, (Prod.mk.inj h).2.symm⟩, ?_⟩
    rintro (⟨-, rfl⟩ | ⟨h, -⟩)
    · rfl
    · exact (ho h).elim

/-- A line change that succeeds, 43_transmit R182. -/
theorem State.lineSet_true {x : Line} {level : Level} :
    s.lineSet x level = (true, t) ↔
      s.linkOpen = true ∧ s.answer = .ok ∧ t = (s.answered.setLine x level).push (.line x level) := by
  unfold State.lineSet
  by_cases ho : s.linkOpen = true
  · rw [if_pos ho]
    cases ha : s.answer with
    | ok => exact ⟨fun h => ⟨ho, rfl, (Prod.mk.inj h).2.symm⟩, fun h => by rw [h.2.2]⟩
    | fail k => exact ⟨fun h => (Bool.false_ne_true (Prod.mk.inj h).1).elim, fun h => nomatch h.2.1⟩
  · rw [if_neg ho]
    exact ⟨fun h => (Bool.false_ne_true (Prod.mk.inj h).1).elim, fun h => (ho h.1).elim⟩

/-- A line change that fails, 43_transmit R182: the line keeps its level and no event is appended. -/
theorem State.lineSet_false {x : Line} {level : Level} :
    s.lineSet x level = (false, t) ↔
      (s.linkOpen = false ∧ t = s) ∨
        (s.linkOpen = true ∧ (∃ k, s.answer = .fail k) ∧ t = s.answered) := by
  unfold State.lineSet
  by_cases ho : s.linkOpen = true
  · rw [if_pos ho]
    cases ha : s.answer with
    | ok =>
      refine ⟨fun h => (Bool.false_ne_true (Prod.mk.inj h).1.symm).elim, ?_⟩
      rintro (⟨h, -⟩ | ⟨-, ⟨k, h⟩, -⟩)
      · rw [ho] at h; cases h
      · cases h
    | fail k =>
      refine ⟨fun h => .inr ⟨ho, ⟨k, rfl⟩, (Prod.mk.inj h).2.symm⟩, ?_⟩
      rintro (⟨h, -⟩ | ⟨-, -, rfl⟩)
      · rw [ho] at h; cases h
      · rfl
  · rw [if_neg ho]
    have hc : s.linkOpen = false := by simpa using ho
    refine ⟨fun h => .inl ⟨hc, (Prod.mk.inj h).2.symm⟩, ?_⟩
    rintro (⟨-, rfl⟩ | ⟨h, -⟩)
    · rfl
    · exact (ho h).elim

/-- What a stage that writes can do. -/
theorem withWrite_next {stage : Stage} {bytes : List Byte} {rest : State → Result}
    (h : withWrite stage bytes rest s = .next t) :
    (∃ u, s.chanWrite bytes = (true, u) ∧ rest u = .next t) ∨
      (∃ u, s.chanWrite bytes = (false, u) ∧ failAt stage u = .next t) := by
  unfold withWrite at h
  split at h
  · rename_i u hu; exact .inl ⟨u, hu, h⟩
  · rename_i u hu; exact .inr ⟨u, hu, h⟩

/-- What a stage that drives a line can do. -/
theorem withLine_next {stage : Stage} {x : Line} {level : Level} {rest : State → Result}
    (h : withLine stage x level rest s = .next t) :
    (∃ u, s.lineSet x level = (true, u) ∧ rest u = .next t) ∨
      (∃ u, s.lineSet x level = (false, u) ∧ failAt stage u = .next t) := by
  unfold withLine at h
  split at h
  · rename_i u hu; exact .inl ⟨u, hu, h⟩
  · rename_i u hu; exact .inr ⟨u, hu, h⟩

/-! ## The payload store -/

/-- A read of `PAY` that answers bytes, 20_memory R41. -/
theorem State.payRead_ok {a n : Nat} {bs : List Byte} :
    s.payRead a n = .ok bs ↔ a + n ≤ s.params.payMax ∧ s.pay.readRun a n = some bs := by
  unfold State.payRead
  split
  · simp; omega
  · split <;> simp_all

/-- With the bytes below `frm.size` written and within `PAY_MAX`, a read below `frm.size` does not fault. -/
theorem State.payRead_loaded (hw : s.pay.wf) (hl : ∀ a < s.frmSize.toNat, (s.pay.read a).isSome = true)
    (hs : s.frmSize.toNat ≤ s.params.payMax) {a n : Nat} (h : a + n ≤ s.frmSize.toNat) :
    ∃ bs, s.payRead a n = .ok bs ∧ bs.length = n := by
  have : (s.pay.readRun a n).isSome = true :=
    (Memory.readRun_isSome hw a n).2 (fun i hi => hl _ (by omega))
  obtain ⟨bs, hbs⟩ := Option.isSome_iff_exists.1 this
  exact ⟨bs, State.payRead_ok.2 ⟨by omega, hbs⟩, ((Memory.readRun_eq_some hw a n bs).1 hbs).1⟩

/-! ## The receive path -/

/-- What an inbound notification can do, 42_reassembler R130. -/
theorem receive_next {chunk : List Byte} :
    receive chunk s = .next t ↔
      s.linkOpen = true ∧ fits s.params.pendMax (s.rxPending.length + chunk.length) = true ∧
        ((chunk = [] ∧ t = s.rearm.reply .done) ∨
          (chunk ≠ [] ∧ t = ({ s with rxPending := s.rxPending ++ chunk }.splitPass).reply .done)) := by
  unfold receive
  split
  · simp_all
  · split
    · simp_all
    · split <;> simp_all [finish_next]

/-! ## Configuration -/

/-- What a write of a configuration register can do, 44_link R194. -/
theorem configure_next {r : CfgReg} {v : Word} :
    configure r v s = .next t ↔
      s.txStage = .idle ∧ ¬ (r = .chunk ∧ v = 0) ∧ t = (s.setCfg v r).reply .done := by
  unfold configure
  split
  · simp_all
  · split
    · simp_all
    · simp_all [finish_next]

/-! ## A step -/

/-- A step that answers a state ran the next issued operation, taken from the queue. -/
theorem step_next (h : step s = .next t) :
    ∃ it rest i, s.issue = it :: rest ∧ decode it = .ok i ∧ exec i { s with issue := rest } = .next t := by
  unfold step State.fetch at h
  split at h
  · cases h
  · rename_i i u hf
    split at hf
    · cases hf
    · rename_i it rest hi
      split at hf
      · rename_i j hj
        cases hf
        exact ⟨it, rest, _, hi, hj, h⟩
      · cases hf

end Sys2Proof.Machine
end

