-- ==== Sys2Proof/Laws/PerInstr.lean ====
section
/-! SUPPORT. Per instruction: decoding its encoding gives it back. The family is RoundTrip; one lemma per constructor. -/

namespace Sys2Proof

/-- The four bytes of `le32` make the word again. -/
theorem ofLe32_le32 (v : Word) :
    ofLe32 (v.extractLsb' 0 8) (v.extractLsb' 8 8) (v.extractLsb' 16 8) (v.extractLsb' 24 8) = v := by
  unfold ofLe32
  apply BitVec.eq_of_getLsbD_eq
  intro i hi
  simp only [BitVec.getLsbD_append, BitVec.getLsbD_extractLsb']
  by_cases h1 : i < 8
  · simp [h1]
  · by_cases h2 : i - 8 < 8
    · simp [h1, h2, show 8 + (i - 8) = i by omega]
    · by_cases h3 : i - 8 - 8 < 8
      · simp [h1, h2, h3, show 16 + (i - 8 - 8) = i by omega]
      · simp [h1, h2, h3, show i - 8 - 8 - 8 < 8 by omega, show 24 + (i - 8 - 8 - 8) = i by omega]

/-- What every instruction satisfies: its encoding decodes to it. -/
def Laws.RoundTrip.Statement (i : Instr) : Prop := decode (encode i) = .ok i

theorem Laws.RoundTrip.cksInit : Laws.RoundTrip.Statement .cksInit := rfl

theorem Laws.RoundTrip.cksByte (b : Byte) : Laws.RoundTrip.Statement (.cksByte b) := rfl

theorem Laws.RoundTrip.cksRead : Laws.RoundTrip.Statement .cksRead := rfl

theorem Laws.RoundTrip.imgParse (source : Source) :
    Laws.RoundTrip.Statement (.imgParse source) := by cases source <;> rfl

theorem Laws.RoundTrip.frmBuild : Laws.RoundTrip.Statement .frmBuild := rfl

theorem Laws.RoundTrip.payLoad (bytes : List Byte) : Laws.RoundTrip.Statement (.payLoad bytes) := rfl

theorem Laws.RoundTrip.rxBytes (chunk : List Byte) : Laws.RoundTrip.Statement (.rxBytes chunk) := rfl

theorem Laws.RoundTrip.rxTexp : Laws.RoundTrip.Statement .rxTexp := rfl

theorem Laws.RoundTrip.rxQto : Laws.RoundTrip.Statement .rxQto := rfl

theorem Laws.RoundTrip.txUpload (r : Bool) : Laws.RoundTrip.Statement (.txUpload r) := by cases r <;> rfl

theorem Laws.RoundTrip.txRestart : Laws.RoundTrip.Statement .txRestart := rfl

theorem Laws.RoundTrip.txStep : Laws.RoundTrip.Statement .txStep := rfl

theorem Laws.RoundTrip.linkOpen : Laws.RoundTrip.Statement .linkOpen := rfl

theorem Laws.RoundTrip.linkClose : Laws.RoundTrip.Statement .linkClose := rfl

theorem Laws.RoundTrip.linkDisc : Laws.RoundTrip.Statement .linkDisc := rfl

theorem Laws.RoundTrip.cfgSet (idx : Byte) (v : Word) : Laws.RoundTrip.Statement (.cfgSet idx v) := by
  show Except.ok (Instr.cfgSet idx (ofLe32 _ _ _ _)) = _
  rw [ofLe32_le32]

theorem Laws.RoundTrip.txStepRstLow : Laws.RoundTrip.Statement .txStepRstLow := rfl

theorem Laws.RoundTrip.txStepRstSettle : Laws.RoundTrip.Statement .txStepRstSettle := rfl

theorem Laws.RoundTrip.txStepMagic : Laws.RoundTrip.Statement .txStepMagic := rfl

theorem Laws.RoundTrip.txStepGapM : Laws.RoundTrip.Statement .txStepGapM := rfl

theorem Laws.RoundTrip.txStepSize : Laws.RoundTrip.Statement .txStepSize := rfl

theorem Laws.RoundTrip.txStepGapS : Laws.RoundTrip.Statement .txStepGapS := rfl

theorem Laws.RoundTrip.txStepPayload : Laws.RoundTrip.Statement .txStepPayload := rfl

theorem Laws.RoundTrip.txStepCksum : Laws.RoundTrip.Statement .txStepCksum := rfl

theorem Laws.RoundTrip.txStepRbPulse : Laws.RoundTrip.Statement .txStepRbPulse := rfl

theorem Laws.RoundTrip.cfgSetTDown (v : Word) : Laws.RoundTrip.Statement (.cfgSetTDown v) := by
  show Except.ok (Instr.cfgSetTDown (ofLe32 _ _ _ _)) = _
  rw [ofLe32_le32]

theorem Laws.RoundTrip.cfgSetTSettle (v : Word) : Laws.RoundTrip.Statement (.cfgSetTSettle v) := by
  show Except.ok (Instr.cfgSetTSettle (ofLe32 _ _ _ _)) = _
  rw [ofLe32_le32]

theorem Laws.RoundTrip.cfgSetTGap (v : Word) : Laws.RoundTrip.Statement (.cfgSetTGap v) := by
  show Except.ok (Instr.cfgSetTGap (ofLe32 _ _ _ _)) = _
  rw [ofLe32_le32]

theorem Laws.RoundTrip.cfgSetChunk (v : Word) : Laws.RoundTrip.Statement (.cfgSetChunk v) := by
  show Except.ok (Instr.cfgSetChunk (ofLe32 _ _ _ _)) = _
  rw [ofLe32_le32]

theorem Laws.RoundTrip.cfgSetTSample (v : Word) : Laws.RoundTrip.Statement (.cfgSetTSample v) := by
  show Except.ok (Instr.cfgSetTSample (ofLe32 _ _ _ _)) = _
  rw [ofLe32_le32]

theorem Laws.RoundTrip.cfgSetTQuiet (v : Word) : Laws.RoundTrip.Statement (.cfgSetTQuiet v) := by
  show Except.ok (Instr.cfgSetTQuiet (ofLe32 _ _ _ _)) = _
  rw [ofLe32_le32]

theorem Laws.RoundTrip.cfgSetTRestart (v : Word) : Laws.RoundTrip.Statement (.cfgSetTRestart v) := by
  show Except.ok (Instr.cfgSetTRestart (ofLe32 _ _ _ _)) = _
  rw [ofLe32_le32]

theorem Laws.RoundTrip.tokNl : Laws.RoundTrip.Statement .tokNl := rfl

theorem Laws.RoundTrip.tokPfxD : Laws.RoundTrip.Statement .tokPfxD := rfl

theorem Laws.RoundTrip.tokPfxI : Laws.RoundTrip.Statement .tokPfxI := rfl

theorem Laws.RoundTrip.tokPfxW : Laws.RoundTrip.Statement .tokPfxW := rfl

theorem Laws.RoundTrip.tokPfxE : Laws.RoundTrip.Statement .tokPfxE := rfl

theorem Laws.RoundTrip.frameMagic : Laws.RoundTrip.Statement .frameMagic := rfl

theorem Laws.RoundTrip.frameSize : Laws.RoundTrip.Statement .frameSize := rfl

theorem Laws.RoundTrip.frameChecksum : Laws.RoundTrip.Statement .frameChecksum := rfl

theorem Laws.RoundTrip.sevDefault : Laws.RoundTrip.Statement .sevDefault := rfl

theorem Laws.RoundTrip.sevDebug : Laws.RoundTrip.Statement .sevDebug := rfl

theorem Laws.RoundTrip.sevInfo : Laws.RoundTrip.Statement .sevInfo := rfl

theorem Laws.RoundTrip.sevWarn : Laws.RoundTrip.Statement .sevWarn := rfl

theorem Laws.RoundTrip.sevError : Laws.RoundTrip.Statement .sevError := rfl

theorem Laws.RoundTrip.stageIdle : Laws.RoundTrip.Statement .stageIdle := rfl

theorem Laws.RoundTrip.stageRstLow : Laws.RoundTrip.Statement .stageRstLow := rfl

theorem Laws.RoundTrip.stageRstSettle : Laws.RoundTrip.Statement .stageRstSettle := rfl

theorem Laws.RoundTrip.stageMagic : Laws.RoundTrip.Statement .stageMagic := rfl

theorem Laws.RoundTrip.stageGapM : Laws.RoundTrip.Statement .stageGapM := rfl

theorem Laws.RoundTrip.stageSize : Laws.RoundTrip.Statement .stageSize := rfl

theorem Laws.RoundTrip.stageGapS : Laws.RoundTrip.Statement .stageGapS := rfl

theorem Laws.RoundTrip.stagePayload : Laws.RoundTrip.Statement .stagePayload := rfl

theorem Laws.RoundTrip.stageCksum : Laws.RoundTrip.Statement .stageCksum := rfl

theorem Laws.RoundTrip.stageRbPulse : Laws.RoundTrip.Statement .stageRbPulse := rfl

theorem Laws.RoundTrip.statusNone : Laws.RoundTrip.Statement .statusNone := rfl

theorem Laws.RoundTrip.statusRun : Laws.RoundTrip.Statement .statusRun := rfl

theorem Laws.RoundTrip.statusOk : Laws.RoundTrip.Statement .statusOk := rfl

theorem Laws.RoundTrip.statusFail : Laws.RoundTrip.Statement .statusFail := rfl

theorem Laws.RoundTrip.errNone : Laws.RoundTrip.Statement .errNone := rfl

theorem Laws.RoundTrip.errParseError : Laws.RoundTrip.Statement .errParseError := rfl

theorem Laws.RoundTrip.errEmptyImageError : Laws.RoundTrip.Statement .errEmptyImageError := rfl

theorem Laws.RoundTrip.errIoError : Laws.RoundTrip.Statement .errIoError := rfl

theorem Laws.RoundTrip.errTransportError : Laws.RoundTrip.Statement .errTransportError := rfl

end Sys2Proof
end

