-- ==== Sys2Proof/Laws/Splitting.lean ====
section
/-! SUPPORT. The splitting of a byte sequence (42_reassembler R131 to R133): where it cuts, that it loses no byte, that it
runs to its end, and the stamping of messages. -/

namespace Sys2Proof.Machine

/-- A newline that is found stands where it is said to. -/
theorem findNl_lt {p : List Byte} : ∀ {i : Nat}, findNl p = some i → i < p.length := by
  induction p with
  | nil => intro i h; cases h
  | cons b t ih =>
    intro i h
    unfold findNl at h
    split at h
    · cases h; simp
    · obtain ⟨j, hj, rfl⟩ := Option.map_eq_some_iff.1 h
      have := ih hj
      simp; omega

theorem findPfxAny_lt {p : List Byte} : ∀ {i : Nat}, findPfxAny p = some i → i < p.length := by
  induction p with
  | nil => intro i h; cases h
  | cons b t ih =>
    intro i h
    unfold findPfxAny at h
    split at h
    · cases h; simp
    · obtain ⟨j, hj, rfl⟩ := Option.map_eq_some_iff.1 h
      have := ih hj
      simp; omega

/-- An interrupting prefix stands at an offset of 1 or more, inside the sequence (42_reassembler R132). -/
theorem findPfx_bounds {p : List Byte} {i : Nat} (h : findPfx p = some i) : 1 ≤ i ∧ i < p.length := by
  cases p with
  | nil => cases h
  | cons b t =>
    obtain ⟨j, hj, rfl⟩ := Option.map_eq_some_iff.1 h
    have := findPfxAny_lt hj
    simp; omega

/-- A cut removes at least one byte and no more than there are (42_reassembler R133). -/
theorem cutPoint_bounds {p : List Byte} {c : Nat} (h : cutPoint p = some c) : 1 ≤ c ∧ c ≤ p.length := by
  unfold cutPoint at h
  split at h
  · rename_i i hi _; cases h; have := findPfx_bounds hi; omega
  · rename_i i n hi hn
    have h1 := findPfx_bounds hi
    have h2 := findNl_lt hn
    split at h <;> cases h <;> omega
  · rename_i n _ hn; cases h; have := findNl_lt hn; omega
  · cases h

/-- There is nowhere to cut exactly when there is no token (42_reassembler R133, step 5). -/
theorem cutPoint_eq_none {p : List Byte} : cutPoint p = none ↔ tokenFree p := by
  unfold cutPoint tokenFree
  cases findPfx p <;> cases findNl p <;> simp
  split <;> simp

/-- The splitting loses no byte and adds none. -/
theorem splitFuel_flatten : ∀ (fuel : Nat) (p : List Byte), (splitFuel fuel p).1.flatten ++ (splitFuel fuel p).2 = p := by
  intro fuel
  induction fuel with
  | zero => intro p; rfl
  | succ fuel ih =>
    intro p
    unfold splitFuel
    split
    · rfl
    · rename_i c _
      simp only [List.flatten_cons, List.append_assoc, ih, List.take_append_drop]

/-- With a turn for each byte the loop runs to its end: what remains has no token. -/
theorem splitFuel_rest : ∀ (fuel : Nat) (p : List Byte), p.length ≤ fuel → tokenFree (splitFuel fuel p).2 := by
  intro fuel
  induction fuel with
  | zero =>
    intro p hp
    have : p = [] := List.length_eq_zero_iff.1 (by omega)
    subst this
    exact ⟨rfl, rfl⟩
  | succ fuel ih =>
    intro p hp
    unfold splitFuel
    split
    · rename_i h; exact cutPoint_eq_none.1 h
    · rename_i c hc
      have := cutPoint_bounds hc
      exact ih _ (by simp; omega)

/-- Every message cut off is non-empty. -/
theorem splitFuel_nonempty : ∀ (fuel : Nat) (p m : List Byte), m ∈ (splitFuel fuel p).1 → m ≠ [] := by
  intro fuel
  induction fuel with
  | zero => intro p m h; simp [splitFuel] at h
  | succ fuel ih =>
    intro p m h
    unfold splitFuel at h
    split at h
    · simp at h
    · rename_i c hc
      rcases List.mem_cons.1 h with rfl | h
      · have := cutPoint_bounds hc
        intro he
        have : (p.take c).length = 0 := by rw [he]; rfl
        simp at this
        rcases this with h1 | h1
        · omega
        · subst h1; simp at *
          omega
      · exact ih _ _ h

/-- More turns than bytes change nothing. -/
theorem splitFuel_enough : ∀ (fuel k : Nat) (p : List Byte), p.length ≤ fuel →
    splitFuel (fuel + k) p = splitFuel fuel p := by
  intro fuel
  induction fuel with
  | zero =>
    intro k p hp
    have : p = [] := List.length_eq_zero_iff.1 (by omega)
    subst this
    cases k <;> rfl
  | succ fuel ih =>
    intro k p hp
    rw [Nat.succ_add_eq_add_succ, Nat.add_succ]
    unfold splitFuel
    split
    · rfl
    · rename_i c hc
      have := cutPoint_bounds hc
      rw [ih k _ (by simp; omega)]

theorem splitAll_flatten (p : List Byte) : (splitAll p).1.flatten ++ (splitAll p).2 = p := splitFuel_flatten _ _

theorem splitAll_rest (p : List Byte) : tokenFree (splitAll p).2 := splitFuel_rest _ _ (Nat.le_refl _)

theorem splitAll_nonempty {p m : List Byte} (h : m ∈ (splitAll p).1) : m ≠ [] := splitFuel_nonempty _ _ _ h

/-- The splitting, one turn at a time: the form an induction over it uses. -/
theorem splitAll_cut {p : List Byte} {c : Nat} (h : cutPoint p = some c) :
    splitAll p = (p.take c :: (splitAll (p.drop c)).1, (splitAll (p.drop c)).2) := by
  have hb := cutPoint_bounds h
  unfold splitAll
  obtain ⟨n, hn⟩ : ∃ n, p.length = n + 1 := ⟨p.length - 1, by omega⟩
  have hlen : (p.drop c).length ≤ n := by simp; omega
  rw [hn, splitFuel, h]
  obtain ⟨k, hk⟩ : ∃ k, n = (p.drop c).length + k := ⟨n - (p.drop c).length, by omega⟩
  simp only [hk]
  rw [splitFuel_enough _ k _ (Nat.le_refl _)]

theorem splitAll_tokenFree {p : List Byte} (h : tokenFree p) : splitAll p = ([], p) := by
  unfold splitAll
  cases hp : p.length with
  | zero => rfl
  | succ n => rw [splitFuel, cutPoint_eq_none.2 h]

/-! ## Stamping -/

theorem stamp_length (ms : List (List Byte)) : ∀ n, (stamp n ms).length = ms.length := by
  induction ms with
  | nil => intro n; rfl
  | cons m ms ih => intro n; simp [stamp, ih]

theorem stamp_text (ms : List (List Byte)) : ∀ n, (stamp n ms).map Message.text = ms := by
  induction ms with
  | nil => intro n; rfl
  | cons m ms ih => intro n; simp [stamp, ih]

theorem stamp_severity {m : Message} (ms : List (List Byte)) : ∀ n, m ∈ stamp n ms → m.severity = classify m.text := by
  induction ms with
  | nil => intro n h; simp [stamp] at h
  | cons x ms ih =>
    intro n h
    rcases List.mem_cons.1 h with rfl | h
    · rfl
    · exact ih _ h

theorem stamp_append (ms ns : List (List Byte)) : ∀ n, stamp n (ms ++ ns) = stamp n ms ++ stamp (n + ms.length) ns := by
  induction ms with
  | nil => intro n; simp [stamp]
  | cons m ms ih => intro n; simp [stamp, ih, Nat.add_assoc, Nat.add_comm 1]

end Sys2Proof.Machine
end

