-- ==== Sys2Proof/Tests/Slice0.lean ====
section
/-! SUPPORT. Tests. Expected values are those of spec/95_test_vectors.md (section named at each test) or written out from
the spec's rules and encodings. The second part holds, for each statement with hypotheses, states that meet them. -/

namespace Sys2Proof.Tests

open Sys2Proof Sys2Proof.Machine

/-! ## Small states and looking at results -/

/-- What a function reads from the next state; nothing after a stop. -/
def see {α : Type} (f : State → α) : Result → Option α
  | .next t => some (f t)
  | .fault _ => none
  | .refused _ => none

/-- Why a result is refused. -/
def why : Result → Option Refusal
  | .next _ => none
  | .fault _ => none
  | .refused r => some r

/-- Reset with `PAY_MAX` 8 and `PEND_MAX` 8. -/
def small : State := State.resetWith ⟨0x04C11DB7, 8, some 8, .high⟩ 0 0

/-- The same with the link open. -/
def online : State := { small with linkOpen := true }

/-- Reset with room for every vector, link open. -/
def roomy : State := { State.reset with linkOpen := true }

/-- WSB section 8's frame, built: 95 section 3.1. -/
def ready : State :=
  { online with
    pay := Memory.run 0 [4, 3, 2, 1, 8, 7, 6, 5]
    frmSize := 8
    frmCksum := 0xFE7B465B
    frmValid := true }

/-- An upload of that frame in a stage. -/
def running (stage : Stage) (sent : Word) (answers : List DevAnswer) : State :=
  { ready with
    txStage := stage
    txStatus := .run
    txSent := sent
    txProgress := progressOf sent 8
    devAnswers := answers }

/-- A restart pulse whose release is due. -/
def pulsing (answers : List DevAnswer) : State :=
  { ready with txStage := .rbPulse, lineB := .active, devAnswers := answers }

/-- A fragment pending with its deadline outstanding. -/
def fragment : State := { online with rxPending := [0x61, 0x62], rxTimer := .armed }

/-- The severities and texts of the messages. -/
def shown (s : State) : List (Severity × List Byte) := s.msgs.map (fun m => (m.severity, m.text))

/-! ## Ill-formed terms are refused by the check, and by the machine -/

theorem test_wellformed_refuses_index_7 : WellFormed (.cfgSet 7 1) = false := by decide
theorem test_wellformed_refuses_zero_chunk : WellFormed (.cfgSet 3 0) = false := by decide
theorem test_wellformed_refuses_zero_chunk_row : WellFormed (.cfgSetChunk 0) = false := by decide
theorem test_wellformed_admits_index_6 : WellFormed (.cfgSet 6 0) = true := by decide

/-! ## Words written out from 30_encoding -/

theorem test_decode_selectors :
    ∀ p ∈ ([([0b00000000], .cksInit), ([0b00000001, 0x5A], .cksByte 0x5A), ([0b00000010], .cksRead),
        ([0b00010000, 0, 0x31], .imgParse (.text [0x31])), ([0b00010000, 1], .imgParse .unreadable),
        ([0b00010001], .frmBuild), ([0b00010010, 7, 9], .payLoad [7, 9]), ([0b00100000, 0x0A], .rxBytes [0x0A]),
        ([0b00100001], .rxTexp), ([0b00100010], .rxQto), ([0b00110000], .txUpload false), ([0b00110001], .txUpload true),
        ([0b00110010], .txRestart), ([0b00110011], .txStep), ([0b01000000], .linkOpen), ([0b01000001], .linkClose),
        ([0b01000010], .linkDisc), ([0b01010000, 2, 0x78, 0x56, 0x34, 0x12], .cfgSet 2 0x12345678)]
        : List (List Byte × Instr)),
      decode ⟨.selector, p.1⟩ = .ok p.2 := by decide

theorem test_decode_stage_rows :
    ∀ p ∈ ([(1, .txStepRstLow), (2, .txStepRstSettle), (3, .txStepMagic), (4, .txStepGapM), (5, .txStepSize),
        (6, .txStepGapS), (7, .txStepPayload), (8, .txStepCksum), (9, .txStepRbPulse)] : List (Byte × Instr)),
      decode ⟨.stepStage, [0b00110011, p.1]⟩ = .ok p.2 := by decide

theorem test_decode_register_rows :
    ∀ p ∈ ([(0, .cfgSetTDown 5), (1, .cfgSetTSettle 5), (2, .cfgSetTGap 5), (3, .cfgSetChunk 5), (4, .cfgSetTSample 5),
        (5, .cfgSetTQuiet 5), (6, .cfgSetTRestart 5)] : List (Byte × Instr)),
      decode ⟨.cfgIndex, [0b01010000, p.1, 5, 0, 0, 0]⟩ = .ok p.2 := by decide

theorem test_decode_tokens :
    ∀ p ∈ ([([0b00001010], .tokNl), ([0x5B, 0x44, 0x5D], .tokPfxD), ([0x5B, 0x49, 0x5D], .tokPfxI),
        ([0x5B, 0x57, 0x5D], .tokPfxW), ([0x5B, 0x45, 0x5D], .tokPfxE)] : List (List Byte × Instr)),
      decode ⟨.token, p.1⟩ = .ok p.2 := by decide

theorem test_decode_frame_fields :
    decode ⟨.frameField, [0, 0xDE, 0xAD, 0xBE, 0xEF]⟩ = .ok .frameMagic ∧ decode ⟨.frameField, [1]⟩ = .ok .frameSize ∧
      decode ⟨.frameField, [3]⟩ = .ok .frameChecksum := by decide

theorem test_decode_codes :
    ∀ p ∈ ([(.severityCode, 0, .sevDefault), (.severityCode, 1, .sevDebug), (.severityCode, 2, .sevInfo),
        (.severityCode, 3, .sevWarn), (.severityCode, 4, .sevError), (.stageCode, 0, .stageIdle),
        (.stageCode, 1, .stageRstLow), (.stageCode, 2, .stageRstSettle), (.stageCode, 3, .stageMagic),
        (.stageCode, 4, .stageGapM), (.stageCode, 5, .stageSize), (.stageCode, 6, .stageGapS),
        (.stageCode, 7, .stagePayload), (.stageCode, 8, .stageCksum), (.stageCode, 9, .stageRbPulse),
        (.statusCode, 0, .statusNone), (.statusCode, 1, .statusRun), (.statusCode, 2, .statusOk),
        (.statusCode, 3, .statusFail), (.errorCode, 0, .errNone), (.errorCode, 1, .errParseError),
        (.errorCode, 2, .errEmptyImageError), (.errorCode, 3, .errIoError), (.errorCode, 4, .errTransportError)]
        : List (Port × Byte × Instr)),
      decode ⟨p.1, [p.2.1]⟩ = .ok p.2.2 := by decide

theorem test_decode_rejects :
    decode ⟨.selector, []⟩ = .error .emptyItem ∧ decode ⟨.selector, [0x03]⟩ = .error (.unassignedSelector 3) ∧
      decode ⟨.selector, [0x34]⟩ = .error (.unassignedSelector 0x34) ∧
      decode ⟨.selector, [0x00, 0]⟩ = .error (.operandLength 0) ∧
      decode ⟨.selector, [0x10, 2]⟩ = .error (.badSourceTag 2) ∧
      decode ⟨.severityCode, [5]⟩ = .error (.noSuchRow .severityCode) ∧
      decode ⟨.stageCode, [10]⟩ = .error (.noSuchRow .stageCode) := by decide

/-- Rows of the opcode table: selectors, the newline token, a prefix token, the magic; 0x03 is no selector and is the code
of a stage. -/
theorem test_table_words :
    decodeTableWord 8 0x33 = some .txStep ∧ decodeTableWord 8 0x31 = some (.txUpload true) ∧
      decodeTableWord 8 0x50 = some (.cfgSet 0 0) ∧ decodeTableWord 8 0x0A = some .tokNl ∧
      decodeTableWord 24 0x5B445D = some .tokPfxD ∧ decodeTableWord 32 0xDEADBEEF = some .frameMagic ∧
      decodeTableWord 32 8 = some .frameSize ∧
      decodeTableWord 8 0x03 = some .stageMagic ∧ decodeTableWord 8 0x99 = none := by decide

theorem test_fetch_word_runs :
    see (fun t => (t.crc, t.issue)) (step (State.reset.withFetchWord 8 0x00)) = some (0xFFFFFFFF, []) ∧
      see State.rxPending (step (roomy.withFetchWord 24 0x5B455D)) = some [0x5B, 0x45, 0x5D] := by decide

/-! ## Reset -/

theorem test_reset_memory_wf : State.reset.pay.wf := by decide
theorem test_reset_step_refused : why (step State.reset) = some .noOperation := by decide

/-! ## The Checksum Engine: 95 sections 1.2 and 2, 40_crc R91 to R93 -/

theorem test_cksInit : see State.crc (exec .cksInit { small with crc := 5 }) = some 0xFFFFFFFF := by decide
theorem test_cksByte_reading_a : see State.crc (exec (.cksByte 1) small) = some 0x03BC323F := by decide
theorem test_cksByte_reading_b :
    see State.crc (exec (.cksByte 1) (State.resetWith ⟨0xEDB88320, 8, none, .high⟩ 0 0)) = some 0x5AFA20E4 := by decide
theorem test_cksRead :
    see (fun t => (t.report, t.crc)) (exec .cksRead { small with crc := 0x075C2DDE }) =
      some (.word 0xF8A3D221, 0x075C2DDE) := by decide

/-! ## The frame formatter: 95 sections 3.1 to 3.3 -/

/-- `"01020304\n05060708\n"`. -/
def wsbText : List Byte :=
  [0x30, 0x31, 0x30, 0x32, 0x30, 0x33, 0x30, 0x34, 0x0A, 0x30, 0x35, 0x30, 0x36, 0x30, 0x37, 0x30, 0x38, 0x0A]

theorem test_imgParse_wsb :
    see (fun t => (t.pay.readRun 0 8, t.frmSize, t.frmValid)) (exec (.imgParse (.text wsbText)) small) =
      some (some [4, 3, 2, 1, 8, 7, 6, 5], 8, false) := by decide +kernel

/-- `"\n\n0x10\n"`: blank lines count in the index. -/
theorem test_imgParse_bad_line :
    see (fun t => (t.report, t.txErr, t.frmSize, t.frmValid))
        (exec (.imgParse (.text [0x0A, 0x0A, 0x30, 0x78, 0x31, 0x30, 0x0A])) ready) =
      some (.raised (.parseError 3), .parseError, 8, false) := by decide +kernel

theorem test_frmBuild_wsb :
    see (fun t => (t.frmCksum, t.crc, t.frmValid)) (exec .frmBuild { ready with frmCksum := 0, frmValid := false }) =
      some (0xFE7B465B, 0x0184B9A4, true) := by decide +kernel

theorem test_frmBuild_reset :
    see (fun t => (t.txErr, t.frmValid)) (exec .frmBuild State.reset) = some (.emptyImageError, false) := by decide

/-- `PAY.LOAD [AA]` over a longer payload: one byte changes. -/
theorem test_payLoad :
    see (fun t => (t.frmSize, t.pay.readRun 0 2, t.frmValid)) (exec (.payLoad [0xAA]) ready) =
      some (1, some [0xAA, 3], false) := by decide

theorem test_payLoad_too_long : why (exec (.payLoad [0, 1, 2, 3, 4, 5, 6, 7, 8]) ready) = some .payloadTooLong := by
  decide

/-! ## The reassembler: 95 sections 4.1 to 4.3 -/

/-- `"partial[I]done\n"`. -/
theorem test_rxBytes_interrupting_prefix :
    see (fun t => (shown t, t.rxPending, t.rxTimer)) (exec (.rxBytes
        [0x70, 0x61, 0x72, 0x74, 0x69, 0x61, 0x6C, 0x5B, 0x49, 0x5D, 0x64, 0x6F, 0x6E, 0x65, 0x0A]) roomy) =
      some ([(.default, [0x70, 0x61, 0x72, 0x74, 0x69, 0x61, 0x6C]),
        (.info, [0x5B, 0x49, 0x5D, 0x64, 0x6F, 0x6E, 0x65, 0x0A])], [], .idle) := by decide +kernel

/-- `"E]x"` after `"abc["`: run 1 of section 4.3. -/
theorem test_rxBytes_prefix_across_chunks :
    see (fun t => (shown t, t.rxPending, t.rxTimer))
        (exec (.rxBytes [0x45, 0x5D, 0x78]) { roomy with rxPending := [0x61, 0x62, 0x63, 0x5B] }) =
      some ([(.default, [0x61, 0x62, 0x63])], [0x5B, 0x45, 0x5D, 0x78], .armed) := by decide +kernel

theorem test_rxTexp :
    see (fun t => (t.rxTimer, t.rxQtoReq, t.rxPending)) (exec .rxTexp fragment) = some (.idle, true, [0x61, 0x62]) := by
  decide

/-- Run 4: the flush leaves the timer armed. -/
theorem test_rxQto :
    see (fun t => (shown t, t.rxPending, t.rxTimer, t.rxQtoReq)) (exec .rxQto { fragment with rxQtoReq := true }) =
      some ([(.default, [0x61, 0x62])], [], .armed, false) := by decide

theorem test_tokNl :
    see (fun t => (shown t, t.rxTimer)) (exec .tokNl fragment) = some ([(.default, [0x61, 0x62, 0x0A])], .idle) := by
  decide

theorem test_prefix_tokens :
    ∀ p ∈ [(Instr.tokPfxD, (0x44 : Byte)), (.tokPfxI, 0x49), (.tokPfxW, 0x57), (.tokPfxE, 0x45)],
      see (fun t => (shown t, t.rxPending, t.rxTimer)) (exec p.1 fragment) =
        some ([(.default, [0x61, 0x62])], [0x5B, p.2, 0x5D], .armed) := by decide

/-! ## The transmitter: 95 sections 5.1 to 5.5 -/

theorem test_txUpload :
    see (fun t => (t.txStage, t.txStatus, t.txRbu)) (exec (.txUpload true) ready) = some (.rstLow, .run, true) := by
  decide

theorem test_txUpload_no_frame : why (exec (.txUpload false) online) = some .noFrame := by decide

/-- Run F4: a closed link. -/
theorem test_txStep_closed_link :
    see (fun t => (t.wire, t.txFailStage, t.txStatus, t.lineA, t.frmValid))
        (exec .txStep { running .rstLow 0 [] with linkOpen := false }) =
      some ([], .rstLow, .fail, .inactive, false) := by decide

theorem test_txStep_idle : why (exec .txStep ready) = some .sequencerIdle := by decide

theorem test_stage_rstLow :
    see (fun t => (t.wire, t.lineA, t.txStage)) (exec .txStepRstLow (running .rstLow 0 [.ok])) =
      some ([.line .a .active, .wait .tDown 100], .active, .rstSettle) := by decide

/-- Run F6: line A stays asserted. -/
theorem test_stage_rstSettle_fails :
    see (fun t => (t.wire, t.lineA, t.txFailStage))
        (exec .txStepRstSettle { running .rstSettle 0 [.fail 0] with lineA := .active }) =
      some ([], .active, .rstSettle) := by decide

theorem test_stage_magic :
    see (fun t => (t.wire, t.txStage)) (exec .txStepMagic (running .magic 0 [.ok])) =
      some ([.write [0xDE, 0xAD, 0xBE, 0xEF]], .gapM) := by decide

/-- Run F1: two bytes went out. -/
theorem test_stage_magic_fails :
    see (fun t => (t.wire, t.txFailStage)) (exec .txStepMagic (running .magic 0 [.fail 2])) =
      some ([.write [0xDE, 0xAD]], .magic) := by decide

theorem test_stage_gapM :
    see (fun t => (t.wire, t.txStage)) (exec .txStepGapM (running .gapM 0 [])) = some ([.wait .tGap 10], .size) := by
  decide

theorem test_stage_size :
    see (fun t => (t.wire, t.txStage)) (exec .txStepSize (running .size 0 [.ok])) =
      some ([.write [8, 0, 0, 0]], .gapS) := by decide

theorem test_stage_gapS_closed_link :
    see (fun t => (t.wire, t.txStage)) (exec .txStepGapS { running .gapS 0 [] with linkOpen := false }) =
      some ([.wait .tGap 10], .payload) := by decide

/-- Section 5.2: size 8, chunk 4. -/
theorem test_stage_payload_half :
    see (fun t => (t.wire, t.txSent, t.txProgress, t.txStage))
        (exec .txStepPayload { running .payload 0 [.ok] with cfgChunk := 4 }) =
      some ([.write [4, 3, 2, 1]], 4, 50, .payload) := by decide +kernel

/-- Size 8, chunk 5, second chunk: the last is shorter. -/
theorem test_stage_payload_last :
    see (fun t => (t.wire, t.txSent, t.txProgress, t.txStage))
        (exec .txStepPayload { running .payload 5 [.ok] with cfgChunk := 5 }) =
      some ([.write [7, 6, 5]], 8, 100, .cksum) := by decide +kernel

theorem test_stage_cksum :
    see (fun t => (t.wire, t.txStatus, t.txStage, t.frmValid)) (exec .txStepCksum (running .cksum 8 [.ok])) =
      some ([.write [0x5B, 0x46, 0x7B, 0xFE]], .ok, .idle, false) := by decide

/-- Run P1. -/
theorem test_txRestart :
    see (fun t => (t.wire, t.lineB, t.txStage)) (exec .txRestart { ready with devAnswers := [.ok], cfgTRestart := 7 }) =
      some ([.line .b .active, .wait .tRestart 7], .active, .rbPulse) := by decide

/-- Run P2. -/
theorem test_txRestart_closed_link :
    see (fun t => (t.report, t.txErr, t.txStage, t.wire)) (exec .txRestart { ready with linkOpen := false }) =
      some (.raised (.transportError .rbPulse), .transportError, .idle, []) := by decide

theorem test_stage_rbPulse :
    see (fun t => (t.wire, t.lineB, t.txStage)) (exec .txStepRbPulse (pulsing [.ok])) =
      some ([.line .b .inactive], .inactive, .idle) := by decide

/-- Run P3. -/
theorem test_stage_rbPulse_fails :
    see (fun t => (t.lineB, t.txStage, t.txErr, t.txStatus, t.frmValid)) (exec .txStepRbPulse (pulsing [.fail 0])) =
      some (.active, .idle, .transportError, .none, true) := by decide

theorem test_stage_row_elsewhere : why (exec .txStepMagic (running .size 0 [])) = some (.otherStage .size) := by decide

/-! ## The link and the configuration: 95 section 6 -/

theorem test_linkOpen_fails :
    see (fun t => (t.linkOpen, t.report, t.txErr)) (exec .linkOpen { small with devAnswers := [.fail 0] }) =
      some (false, .raised (.transportError .idle), .none) := by decide

theorem test_linkOpen : see State.linkOpen (exec .linkOpen { small with devAnswers := [.ok] }) = some true := by decide

theorem test_linkClose_fails :
    see (fun t => (t.linkOpen, t.rxPending, t.rxTimer, t.report)) (exec .linkClose { fragment with devAnswers := [.fail 0] })
      = some (false, [], .idle, .raised (.transportError .idle)) := by decide

/-- 44_link R192's example. -/
theorem test_linkDisc :
    see (fun t => (t.txStatus, t.txFailStage, t.txErr, t.txStage, t.linkOpen)) (exec .linkDisc (running .payload 0 [])) =
      some (.fail, .payload, .transportError, .idle, false) := by decide

theorem test_cfgSet : see State.cfgChunk (exec (.cfgSet 3 256) small) = some 256 := by decide

theorem test_cfgSet_refused :
    why (exec (.cfgSet 3 0) small) = some .zeroChunk ∧ why (exec (.cfgSet 7 1) small) = some .noSuchRegister := by decide

theorem test_cfgSet_rows :
    see State.cfgTDown (exec (.cfgSetTDown 9) small) = some 9 ∧
      see State.cfgTSettle (exec (.cfgSetTSettle 9) small) = some 9 ∧
      see State.cfgTGap (exec (.cfgSetTGap 9) small) = some 9 ∧
      see State.cfgChunk (exec (.cfgSetChunk 9) small) = some 9 ∧
      see State.cfgTSample (exec (.cfgSetTSample 9) small) = some 9 ∧
      see State.cfgTQuiet (exec (.cfgSetTQuiet 9) small) = some 9 ∧
      see State.cfgTRestart (exec (.cfgSetTRestart 9) small) = some 9 := by decide

/-! ## Rows that report -/

theorem test_frame_fields :
    see State.report (exec .frameMagic ready) = some (.bytes [0xDE, 0xAD, 0xBE, 0xEF]) ∧
      see State.report (exec .frameSize ready) = some (.bytes [8, 0, 0, 0]) ∧
      see State.report (exec .frameChecksum ready) = some (.bytes [0x5B, 0x46, 0x7B, 0xFE]) := by decide

theorem test_code_rows :
    see State.report (exec .sevError small) = some (.word 4) ∧ see State.report (exec .stageRbPulse small) = some (.word 9) ∧
      see State.report (exec .statusFail small) = some (.word 3) ∧
      see State.report (exec .errTransportError small) = some (.word 4) := by decide

/-! ## States that meet the hypotheses of the statements

One theorem for each statement with hypotheses; a statement with several clauses has a part for each, at a boundary value of
its range where it has one. -/

/-- Two words, `0` in one digit and `ffffFFFF` in mixed case, with a blank line and whitespace, the last line not ended:
eight bytes, all of `PAY`. -/
def twoWords : List SourceLine :=
  [⟨[0x20], [0x0D], [false], some 0⟩, ⟨[0x09], [], [], none⟩,
    ⟨[], [], [false, false, false, false, true, true, true, true], some 0xFFFFFFFF⟩]

/-- Three words, more than `PAY` holds, the last line ended. -/
def threeWords : List SourceLine :=
  [⟨[], [], [false], some 1⟩, ⟨[], [], [false], some 2⟩, ⟨[], [], [false], some 3⟩, ⟨[], [], [], none⟩]

theorem twoWords_ok : ∀ l ∈ twoWords, l.ok := by simp [twoWords, SourceLine.ok, blankLine, lineSpaces]

theorem threeWords_ok : ∀ l ∈ threeWords, l.ok := by simp [threeWords, SourceLine.ok, blankLine, lineSpaces]

/-- The text of `twoWords`, written out. -/
theorem test_twoWords_text :
    renderText twoWords =
      [0x20, 0x30, 0x0D, 0x0A, 0x09, 0x0A, 0x66, 0x66, 0x66, 0x66, 0x46, 0x46, 0x46, 0x46] := by decide

/-- A word line begins with a digit or whitespace. -/
theorem not_wordLine_of_head {c : Byte} {l : List Byte} (hs : c ∉ lineSpaces) (hd : c ∉ digitValues.map Prod.fst) :
    ¬ wordLine (c :: l) := by
  rintro ⟨b, m, a, h, hb, ⟨hm, hall, -⟩, -⟩
  cases b with
  | cons x xs =>
    have hx : c = x := by simpa using congrArg List.head? h
    exact hs (hx ▸ hb x (by simp))
  | nil =>
    cases m with
    | nil => exact hm rfl
    | cons x xs =>
      have hx : c = x := by simpa using congrArg List.head? h
      exact hd (hx ▸ hall x (by simp))

/-- The built frame keeps the invariant of the formatter and the transmitter. -/
theorem ready_inv : TxInv ready where
  params := by decide
  payWf := by decide
  payRange := by decide
  payLoaded := by decide
  sizeFits := by decide
  built _ := ⟨by decide, [4, 3, 2, 1, 8, 7, 6, 5], by decide, by decide +kernel⟩
  chunk := by decide
  running := by decide
  resting := by decide
  sentBefore := by decide
  sentDuring := by decide
  sentAfter := by decide
  progress := by decide
  progressMax := by decide
  progressOk := by decide
  failStage := by decide
  lineAHeld := by decide
  lineBHeld := by decide
  writes _ h := nomatch h

/-- A pending fragment keeps the receive invariant. -/
theorem fragment_inv : RxInv fragment where
  pending := by unfold tokenFree; decide
  messages _ h := nomatch h
  armed := by decide
  closed := by decide
  capacity := by decide

theorem test_witness_TopBitsUnderReadingA : ([0] : List Byte) ≠ [] := by decide

theorem test_witness_ImgParseReadsTheWords :
    small.txStage = .idle ∧ small.pay.wf ∧ small.params.wf ∧ (∀ l ∈ twoWords, l.ok) ∧ textWords twoWords ≠ [] ∧
      4 * (textWords twoWords).length = small.params.payMax :=
  ⟨by decide, by decide, by decide, twoWords_ok, by decide, by decide⟩

/-- A bad first line `g`; a bad third line `x1` after a blank line and the word `1`; blank lines; too many words. -/
theorem test_witness_ImgParseRaisesItsErrors :
    small.txStage = .idle ∧
      (([[0x67]] : List (List Byte))[0]? = some [0x67] ∧ ¬ blankLine [0x67] ∧ ¬ wordLine [0x67]) ∧
      ((∀ m ∈ ([[0x20], [0x31, 0x0D], [0x78, 0x31]] : List (List Byte)), (0x0A : Byte) ∉ m) ∧
        ([[0x20], [0x31, 0x0D], [0x78, 0x31]] : List (List Byte))[2]? = some [0x78, 0x31] ∧
        ¬ blankLine [0x78, 0x31] ∧ ¬ wordLine [0x78, 0x31] ∧ blankLine [0x20] ∧ wordLine [0x31, 0x0D]) ∧
      (∀ l ∈ ([[0x20], []] : List (List Byte)), blankLine l) ∧
      (∀ l ∈ threeWords, l.ok) ∧ small.params.payMax < 4 * (textWords threeWords).length ∧ ([0x30] : List Byte) ≠ [] := by
  refine ⟨by decide, ⟨by decide, by unfold blankLine; decide, not_wordLine_of_head (by decide) (by decide)⟩,
    ⟨by decide, by decide, by unfold blankLine; decide, not_wordLine_of_head (by decide) (by decide),
      by unfold blankLine; decide, [], [0x31], [0x0D], rfl, by unfold blankLine; decide, ?_,
      by unfold blankLine; decide⟩,
    by unfold blankLine; decide, threeWords_ok, by decide, by decide⟩
  unfold wordText
  decide

/-- Both ends of the words of 30_encoding R64, and what is no word: `g`, an inner space, a sign, `0x1`, 2 to the 32. -/
theorem test_wordOf :
    wordOf [0x61, 0x42] = some 0xAB ∧ wordOf [0x67] = none ∧ wordOf [0x31, 0x20, 0x32] = none ∧
      wordOf [0x2D, 0x31] = none ∧ wordOf [0x30, 0x78, 0x31] = none ∧
      wordOf [0x31, 0x30, 0x30, 0x30, 0x30, 0x30, 0x30, 0x30, 0x30] = none := by decide

theorem test_witness_PayLoadStoresItsBytes :
    (running .magic 0 []).txStage ≠ .idle ∧
      (ready.txStage = .idle ∧ ready.params.payMax < ([1, 2, 3, 4, 5, 6, 7, 8, 9] : List Byte).length) ∧
      (ready.pay.wf ∧ ([1] : List Byte) ≠ [] ∧ ([1] : List Byte).length ≤ ready.params.payMax) ∧
      ([1, 2, 3, 4, 5, 6, 7, 8] : List Byte).length = ready.params.payMax := by decide

theorem test_witness_FrmBuildSumsSizeAndPayload :
    (running .cksum 8 []).txStage ≠ .idle ∧ (small.txStage = .idle ∧ small.frmSize = 0) ∧
      (ready.txStage = .idle ∧ ready.frmSize ≠ 0 ∧ ready.frmSize.toNat = ready.params.payMax ∧ ready.pay.wf ∧
        ([4, 3, 2, 1, 8, 7, 6, 5] : List Byte).length = ready.frmSize.toNat ∧
        ∀ k < 8, ready.pay.read k = ([4, 3, 2, 1, 8, 7, 6, 5] : List Byte)[k]?) := by decide

theorem test_witness_RebuildingGivesTheSameFrame :
    ∃ t u : State, exec .frmBuild ready = .next t ∧ t.frmValid = true ∧ t.pay = u.pay ∧ t.frmSize = u.frmSize ∧
      t.params = u.params ∧ u.txStage = .idle ∧ u.crc ≠ t.crc ∧ u.frmValid = false := by
  refine ⟨_, { ready with frmValid := false }, rfl, ?_⟩
  decide +kernel

theorem test_witness_BuildMakesAFrame :
    small.txStage = .idle ∧ small.pay.wf ∧ small.params.wf ∧ (∀ l ∈ twoWords, l.ok) ∧ textWords twoWords ≠ [] ∧
      4 * (textWords twoWords).length = small.params.payMax := test_witness_ImgParseReadsTheWords

theorem test_witness_BuiltFrameChecksItself : TxInv ready ∧ ready.frmValid = true := ⟨ready_inv, rfl⟩

theorem test_witness_BusySequencerRefuses : (pulsing []).txStage ≠ .idle := by decide

theorem test_witness_RxBytesLosesNoByte :
    fragment.linkOpen = true ∧
      fits fragment.params.pendMax (fragment.rxPending.length + ([0x5B, 0x45, 0x5D, 1, 2, 0x0A] : List Byte).length) =
        true := by decide

theorem test_witness_RxBytesLeavesNoToken :
    ∃ t, ([0x0A, 0x61] : List Byte) ≠ [] ∧ exec (.rxBytes [0x0A, 0x61]) fragment = .next t := ⟨_, by decide, rfl⟩

theorem test_witness_RxBytesEmptyChunkAndRefusals :
    (fragment.linkOpen = true ∧ fits fragment.params.pendMax fragment.rxPending.length = true ∧
      fragment.rxPending ≠ []) ∧
      (online.linkOpen = true ∧ fits online.params.pendMax online.rxPending.length = true ∧ online.rxPending = []) ∧
      small.linkOpen = false ∧
      (fragment.params.pendMax = some 8 ∧
        8 < fragment.rxPending.length + ([1, 2, 3, 4, 5, 6, 7] : List Byte).length) := by decide

theorem test_witness_FragmentationIndependence :
    ([[0x5B], [], [0x45, 0x5D, 0x78, 0x0A, 0x31]] : List (List Byte)) ≠ [] ∧ fragment.linkOpen = true ∧
      fits fragment.params.pendMax
        (fragment.rxPending.length + ([[0x5B], [], [0x45, 0x5D, 0x78, 0x0A, 0x31]] : List (List Byte)).flatten.length) =
        true := by decide

theorem test_witness_RxTexpRequestsATimeout : fragment.rxTimer = .armed ∧ online.rxTimer ≠ .armed := by decide

theorem test_witness_RxQtoFlushesOnce :
    fragment.rxQtoReq = false ∧
      ({ online with rxQtoReq := true } : State).rxQtoReq = true ∧ ({ online with rxQtoReq := true } : State).rxPending = [] ∧
      ({ fragment with rxQtoReq := true } : State).rxQtoReq = true ∧
      ({ fragment with rxQtoReq := true } : State).rxPending ≠ [] := by decide

theorem test_witness_PendingFragmentSurfaces : RxInv fragment ∧ fragment.rxPending ≠ [] := ⟨fragment_inv, by decide⟩

theorem test_witness_NewlineTokenEndsTheMessage :
    fragment.linkOpen = true ∧ tokenFree fragment.rxPending ∧
      fits fragment.params.pendMax (fragment.rxPending.length + 1) = true :=
  ⟨rfl, fragment_inv.pending, by decide⟩

theorem test_witness_PrefixTokensInterrupt :
    (fragment.linkOpen = true ∧ tokenFree fragment.rxPending ∧
      fits fragment.params.pendMax (fragment.rxPending.length + 3) = true ∧ fragment.rxPending ≠ []) ∧
      (online.linkOpen = true ∧ tokenFree online.rxPending ∧
        fits online.params.pendMax (online.rxPending.length + 3) = true ∧ online.rxPending = []) :=
  ⟨⟨rfl, fragment_inv.pending, by decide, by decide⟩, ⟨rfl, by unfold tokenFree; decide, by decide, rfl⟩⟩

theorem test_witness_SeverityIsThatOfThePrefix :
    ([0x5B, 0x44, 0x5D] : List Byte).take 3 = [0x5B, 0x44, 0x5D] ∧
      ([0x5B, 0x49, 0x5D, 0x31] : List Byte).take 3 = [0x5B, 0x49, 0x5D] ∧
      ([0x5B, 0x57, 0x5D] : List Byte).take 3 = [0x5B, 0x57, 0x5D] ∧
      ([0x5B, 0x45, 0x5D] : List Byte).take 3 = [0x5B, 0x45, 0x5D] ∧
      ([0x5B, 0x45] : List Byte).take 3 ∉
        [[0x5B, 0x44, 0x5D], [0x5B, 0x49, 0x5D], [0x5B, 0x57, 0x5D], ([0x5B, 0x45, 0x5D] : List Byte)] := by decide

/-- The fragment with an operation issued keeps the receive invariant. -/
theorem test_witness_StepKeepsReceiveInvariant :
    ∃ s t, RxInv s ∧ step s = .next t ∧ t.rxQtoReq = true :=
  ⟨{ fragment with issue := [⟨.selector, [0x21]⟩] }, _,
    ⟨fragment_inv.pending, fragment_inv.messages, fragment_inv.armed, fragment_inv.closed, fragment_inv.capacity⟩,
    rfl, rfl⟩

theorem test_witness_ResetMeetsReceiveInvariant : Config.resetParams.wf := by decide

theorem test_witness_TxUploadStarts :
    (running .size 0 []).txStage ≠ .idle ∧ (online.txStage = .idle ∧ online.frmValid = false) ∧
      (ready.txStage = .idle ∧ ready.frmValid = true) := by decide

theorem test_witness_line_A_stages :
    ∀ stage ∈ [Stage.rstLow, Stage.rstSettle],
      (running stage 0 [.ok]).txStage = stage ∧ (running stage 0 [.ok]).linkOpen = true ∧
        (running stage 0 [.ok]).answer = .ok ∧ (running stage 0 [.fail 0]).answer = .fail 0 ∧
        ({ running stage 0 [] with linkOpen := false } : State).linkOpen = false := by decide

theorem test_witness_writing_stages :
    ∀ stage ∈ [Stage.magic, Stage.size, Stage.cksum],
      (running stage 0 [.ok]).txStage = stage ∧ (running stage 0 [.ok]).linkOpen = true ∧
        (running stage 0 [.ok]).answer = .ok ∧ (running stage 0 [.fail 0]).answer = .fail 0 ∧
        (running stage 0 [.fail 4]).answer = .fail 4 ∧
        ({ running stage 0 [] with linkOpen := false } : State).linkOpen = false := by decide

theorem test_witness_GapStagesWait :
    (running .gapM 0 []).txStage = .gapM ∧ (running .gapS 0 []).txStage = .gapS := by decide

/-- The first chunk and the last, which is one byte. -/
theorem test_witness_StagePayloadWritesAChunk :
    ∀ p ∈ [((0 : Word), (7 : Nat), ([4, 3, 2, 1, 8, 7, 6] : List Byte)), (7, 1, [5])],
      ∀ a ∈ [DevAnswer.ok, .fail 0],
        ({ running .payload p.1 [a] with cfgChunk := 7 } : State).txStage = .payload ∧
          ({ running .payload p.1 [a] with cfgChunk := 7 } : State).pay.wf ∧
          ({ running .payload p.1 [a] with cfgChunk := 7 } : State).frmSize.toNat ≤ small.params.payMax ∧
          ({ running .payload p.1 [a] with cfgChunk := 7 } : State).txSent.toNat < 8 ∧
          p.2.1 = min 7 (8 - p.1.toNat) ∧ p.2.2.length = p.2.1 ∧
          (∀ k < p.2.1, ready.pay.read (p.1.toNat + k) = p.2.2[k]?) ∧
          ({ running .payload p.1 [a] with cfgChunk := 7 } : State).answer = a := by decide

theorem test_witness_RestartPulsesLineB :
    (running .magic 0 []).txStage ≠ .idle ∧
      (ready.txStage = .idle ∧ ready.linkOpen = true ∧ ({ ready with devAnswers := [.ok] } : State).answer = .ok ∧
        ({ ready with devAnswers := [.fail 0] } : State).answer = .fail 0) ∧
      (small.txStage = .idle ∧ small.linkOpen = false) ∧
      ((pulsing [.ok]).txStage = .rbPulse ∧ (pulsing [.ok]).linkOpen = true ∧ (pulsing [.ok]).answer = .ok ∧
        (pulsing [.fail 0]).answer = .fail 0 ∧ ({ pulsing [] with linkOpen := false } : State).txStage = .rbPulse) := by
  decide

theorem test_witness_StepRowsBelongToTheirStage :
    ready.txStage = .idle ∧ (running .gapM 0 []).txStage = .gapM ∧ (running .gapM 0 []).txStage ≠ .rbPulse := by decide

theorem test_witness_ProgressIsHundredOnlyAtTheEnd :
    (1 : Word) ≠ 0 ∧ (0xFFFFFFFE : Word).toNat ≤ (0xFFFFFFFF : Word).toNat ∧ (0 : Word).toNat ≤ (1 : Word).toNat ∧
      (1 : Word).toNat ≤ (1 : Word).toNat := by decide

/-- The first payload chunk of the running upload of `ready`, with `TX.STEP` issued: it keeps the invariant, and its step
sends all. -/
theorem test_witness_progress_step :
    ∃ s t, TxInv s ∧ s.txStage.uploading = true ∧ step s = .next t ∧ s.txSent = 0 ∧ t.txSent = 8 ∧
      t.txProgress = 100 :=
  ⟨{ running .payload 0 [.ok] with issue := [⟨.selector, [0x33]⟩] }, _,
    { params := by decide, payWf := by decide, payRange := by decide, payLoaded := by decide, sizeFits := by decide,
      built := ready_inv.built, chunk := by decide, running := by decide, resting := by decide,
      sentBefore := by decide, sentDuring := by decide, sentAfter := by decide, progress := by decide,
      progressMax := by decide, progressOk := by decide, failStage := by decide, lineAHeld := by decide,
      lineBHeld := by decide, writes := fun _ h => nomatch h },
    rfl, rfl, rfl, rfl, rfl⟩

/-- The frame ready, with DEV's answers standing: 95 section 5.3, chunk 4. -/
def primed : State := { ready with cfgChunk := 4, devAnswers := List.replicate 7 .ok }

/-- The invariant of the formatter and the transmitter for a variant of `ready` in its chunk size, answers and issued
operations. -/
theorem ready_variant_inv (answers : List DevAnswer) (issue : List IssueItem) :
    TxInv { ready with cfgChunk := 4, devAnswers := answers, issue := issue } :=
  { ready_inv with built := ready_inv.built, chunk := (by decide : (4 : Word) ≠ 0) }

theorem test_witness_UploadSendsTheFrame :
    TxInv primed ∧ primed.txStage = .idle ∧ primed.frmValid = true ∧ primed.linkOpen = true ∧
      primed.pay.readRun 0 primed.frmSize.toNat = some [4, 3, 2, 1, 8, 7, 6, 5] ∧
      primed.devAnswers = List.replicate (uploadQuestions true primed [4, 3, 2, 1, 8, 7, 6, 5]) .ok ++ [] :=
  ⟨ready_variant_inv _ _, by decide, by decide, by decide, by decide, by decide⟩

theorem test_witness_StepKeepsTransmitInvariant :
    ∃ s t, TxInv s ∧ step s = .next t ∧ t.txStage = .rstLow :=
  ⟨{ ready with cfgChunk := 4, devAnswers := [], issue := [⟨.selector, [0x31]⟩] }, _, ready_variant_inv _ _, rfl, rfl⟩

theorem test_witness_ResetMeetsTransmitInvariant : (⟨0, 1, some 1, .low⟩ : Params).wf := by decide

theorem test_witness_NothingChangesAFrameInUse :
    ∃ t, (running .gapM 0 []).txStage ≠ .idle ∧ exec .txStep (running .gapM 0 []) = .next t := ⟨_, by decide, rfl⟩

theorem test_witness_TracesOnlyGrow : ∃ t, exec .tokNl fragment = .next t ∧ t.msgs.length = 1 := ⟨_, rfl, rfl⟩

theorem test_witness_ReceiveAndTransmitAreApart :
    (receiveSide .tokNl ∧ ∃ t, exec .tokNl fragment = .next t) ∧
      (transmitSide .txStep ∧ ∃ t, exec .txStep (running .magic 0 [.ok]) = .next t) :=
  ⟨⟨trivial, _, rfl⟩, ⟨trivial, _, rfl⟩⟩

theorem test_witness_LinesMoveOnlyInTheirStages :
    (∃ t, exec .txStep (running .rstLow 0 [.ok]) = .next t ∧ t.lineA ≠ (running .rstLow 0 [.ok]).lineA) ∧
      ∃ t, exec .txStep (pulsing [.ok]) = .next t ∧ t.lineB ≠ (pulsing [.ok]).lineB :=
  ⟨⟨_, rfl, by decide⟩, ⟨_, rfl, by decide⟩⟩

theorem test_witness_LineVoltages :
    (ready.lineA = .inactive ∧ ready.lineB = .inactive) ∧
      ({ running .rstSettle 0 [.ok] with lineA := .active } : State).lineA = .active ∧ (pulsing []).lineB = .active ∧
      (∀ s ∈ [running .rstLow 0 [.ok], running .rstSettle 0 [.ok], { ready with devAnswers := [.ok] }, pulsing [.ok]],
        s.linkOpen = true ∧ s.answer = .ok) ∧
      (running .rstLow 0 [.ok]).txStage = .rstLow ∧ (running .rstSettle 0 [.ok]).txStage = .rstSettle ∧
      ready.txStage = .idle ∧ (pulsing [.ok]).txStage = .rbPulse := by decide

theorem test_witness_InvariantStatesAreSafe : TxInv ready := ready_inv

theorem test_witness_LinkOpenAsksThePlatform :
    online.linkOpen = true ∧ small.linkOpen = false ∧ ({ small with devAnswers := [.ok] } : State).answer = .ok ∧
      ({ small with devAnswers := [.fail 0] } : State).answer = .fail 0 := by decide

theorem test_witness_LinkCloseDiscardsTheFragment :
    small.linkOpen = false ∧ fragment.linkOpen = true ∧ ({ fragment with devAnswers := [.ok] } : State).answer = .ok ∧
      ({ fragment with devAnswers := [.fail 0] } : State).answer = .fail 0 := by decide

theorem test_witness_LinkDiscFailsTheUpload :
    small.linkOpen = false ∧ (fragment.linkOpen = true ∧ fragment.txStage = .idle) ∧
      ((pulsing []).linkOpen = true ∧ (pulsing []).txStage = .rbPulse) ∧
      ((running .rstLow 0 []).linkOpen = true ∧ (running .rstLow 0 []).txStage ≠ .idle ∧
        (running .rstLow 0 []).txStage ≠ .rbPulse) := by decide

theorem test_witness_CfgSetWritesOneRegister :
    (running .payload 0 []).txStage ≠ .idle ∧ small.txStage = .idle ∧ (1 : Word) ≠ 0 ∧ 6 < (7 : Byte).toNat ∧
      6 < (255 : Byte).toNat := by decide

theorem test_witness_FrameFieldRowsReportTheirBytes : ready.frmValid = true ∧ small.frmValid = false := by decide

theorem test_witness_StepRunsTheIssuedOperation :
    small.issue = [] ∧ decode ⟨.selector, [0x00]⟩ = .ok .cksInit ∧
      decode ⟨.selector, [0x03]⟩ = .error (.unassignedSelector 3) := by decide

theorem test_witness_EncodeInvertsDecode : decode ⟨.selector, [0x50, 3, 0, 1, 0, 0]⟩ = .ok (.cfgSet 3 256) := by decide

end Sys2Proof.Tests
end

section
/-! PROOFS. The Checksum Engine's three operations (40_crc R91 to R93): what each hands over and what it leaves as it was. -/

namespace Sys2Proof.Machine

/-! ## The meaning of each operation, given by the whole next state -/

theorem exec_cksInit (s : State) : exec .cksInit s = .next ({ s with crc := Config.crcInit }.reply .done) := rfl

theorem exec_cksByte (b : Byte) (s : State) :
    exec (.cksByte b) s = .next ({ s with crc := crcByte s.params.polyR s.crc b }.reply .done) := rfl

theorem exec_cksRead (s : State) : exec .cksRead s = .next (s.reply (.word (~~~ s.crc))) := rfl

/-! ## The spec's spelling of the update and of the final step -/

/-- 40_crc R92 cuts the index to its low byte; the model takes it out as a field of eight bits from bit 0. -/
theorem crcByte_eq_tableEntry_setWidth (poly crc : Word) (b : Byte) :
    crcByte poly crc b = (crc >>> 8) ^^^ tableEntry poly ((crc ^^^ b.setWidth 32).setWidth 8) := by
  rw [crcByte, BitVec.setWidth_eq_extractLsb' (by decide : 8 ≤ 32)]

/-- 40_crc R93 writes the complement also as an exclusive or with all ones. -/
theorem not_eq_xor_ones (w : Word) : ~~~ w = w ^^^ 0xFFFFFFFF :=
  BitVec.xor_allOnes.symm

/-! ## The obligations -/

/-- Settles O1: the accumulator is `CRC_INIT`, whatever it held. -/
theorem cksInitSetsAccumulator : Obligations.CksInitSetsAccumulator := by
  intro s
  exact exec_cksInit s

/-- Settles O2: one table entry, at the low byte of `crc ^ b`. -/
theorem cksByteUsesTheTable : Obligations.CksByteUsesTheTable := by
  intro s b
  rw [exec_cksByte, crcByte_eq_tableEntry_setWidth, State.reply]

/-- Settles O5: only the report differs. -/
theorem cksReadGivesComplement : Obligations.CksReadGivesComplement := by
  intro s
  rw [exec_cksRead, not_eq_xor_ones, State.reply]

end Sys2Proof.Machine
end

section
/-! PROOFS. The frame formatter (41_frame_build): what a busy sequencer refuses (R118, with 43_transmit R160 and R176 and
44_link R194), and the four cases of `PAY.LOAD` (R117). -/

namespace Sys2Proof.Machine

variable {s : State}

/-! ## What a sequencer that is not idle refuses: the first guard of each operation -/

theorem exec_imgParse_busy (h : s.txStage ≠ .idle) (source : Source) :
    exec (.imgParse source) s = .refused .sequencerBusy := if_pos h

theorem exec_payLoad_busy (h : s.txStage ≠ .idle) (bytes : List Byte) :
    exec (.payLoad bytes) s = .refused .sequencerBusy := if_pos h

theorem exec_frmBuild_busy (h : s.txStage ≠ .idle) : exec .frmBuild s = .refused .sequencerBusy := if_pos h

theorem exec_txUpload_busy (h : s.txStage ≠ .idle) (r : Bool) :
    exec (.txUpload r) s = .refused .sequencerBusy := if_pos h

theorem exec_txRestart_busy (h : s.txStage ≠ .idle) : exec .txRestart s = .refused .sequencerBusy := if_pos h

theorem exec_cfgSet_busy (h : s.txStage ≠ .idle) (idx : Byte) (v : Word) :
    exec (.cfgSet idx v) s = .refused .sequencerBusy := if_pos h

/-! ## What `PAY.LOAD` does once the sequencer is idle -/

theorem exec_payLoad_idle (hi : s.txStage = .idle) (bytes : List Byte) :
    exec (.payLoad bytes) s =
      if s.params.payMax < bytes.length then .refused .payloadTooLong
      else if bytes = [] then failBuild .emptyImageError .emptyImageError s
      else finish (s.loadPayload bytes) := if_neg (not_not.2 hi)

theorem exec_payLoad_tooLong (hi : s.txStage = .idle) {bytes : List Byte} (hl : s.params.payMax < bytes.length) :
    exec (.payLoad bytes) s = .refused .payloadTooLong := by
  rw [exec_payLoad_idle hi, if_pos hl]

/-- No bytes always fit, so it is the empty case that answers. -/
theorem exec_payLoad_nil (hi : s.txStage = .idle) :
    exec (.payLoad []) s = failBuild .emptyImageError .emptyImageError s := by
  have hfits : ¬ s.params.payMax < ([] : List Byte).length := Nat.not_lt_zero _
  rw [exec_payLoad_idle hi, if_neg hfits, if_pos rfl]

theorem exec_payLoad_fits (hi : s.txStage = .idle) {bytes : List Byte} (hne : bytes ≠ [])
    (hl : bytes.length ≤ s.params.payMax) :
    exec (.payLoad bytes) s = .next ((s.loadPayload bytes).reply .done) := by
  rw [exec_payLoad_idle hi, if_neg (Nat.not_lt.2 hl), if_neg hne, finish]

/-- A payload that is loaded stands at addresses 0 up; above it `PAY` is as before. -/
theorem State.loadPayload_pay_read (hw : s.pay.wf) (bytes : List Byte) (a : Nat) :
    (s.loadPayload bytes).pay.read a = if a < bytes.length then bytes[a]? else s.pay.read a := by
  rw [State.loadPayload_pay, Memory.read_writeRun hw]
  simp only [Nat.zero_le, true_and, Nat.zero_add, Nat.sub_zero]

/-! ## The obligations -/

/-- Settles O12: one case of the operation for each clause; the read after the write gives `PAY` byte by byte. -/
theorem payLoadStoresItsBytes : Obligations.PayLoadStoresItsBytes := by
  intro s bytes
  refine ⟨fun hb => exec_payLoad_busy hb bytes, fun hi hl => exec_payLoad_tooLong hi hl, ?empty, ?stored⟩
  case empty =>
    rintro hi rfl
    rw [exec_payLoad_nil hi, failBuild, raise, State.reply]
  case stored =>
    intro hi hw hne hl
    exact ⟨_, exec_payLoad_fits hi hne hl, rfl, State.loadPayload_pay_read hw bytes⟩

/-- Settles O17: each operation asks for the idle sequencer before anything else, so no operand matters. -/
theorem busySequencerRefuses : Obligations.BusySequencerRefuses := by
  intro s h
  exact ⟨exec_imgParse_busy h, exec_payLoad_busy h, exec_frmBuild_busy h, exec_txUpload_busy h,
    exec_txRestart_busy h, exec_cfgSet_busy h⟩

end Sys2Proof.Machine
end

section
/-! PROOFS. The quiet timer's expiry (42_reassembler R135): enabled by an outstanding deadline, and single-shot. -/

namespace Sys2Proof.Machine

variable {s : State}

/-! ## The two branches of `RX.TEXP`, decided by the timer alone -/

/-- The deadline is spent and the request is left behind for `RX.QTO`. -/
theorem exec_rxTexp_armed (h : s.rxTimer = .armed) :
    exec .rxTexp s = .next ({ s with rxTimer := .idle, rxQtoReq := true }.reply .done) := if_neg (not_not.2 h)

theorem exec_rxTexp_notArmed (h : s.rxTimer ≠ .armed) : exec .rxTexp s = .refused .noDeadline := if_pos h

/-! ## The obligation -/

/-- Settles O22: one branch of the operation for each clause. -/
theorem rxTexpRequestsATimeout : Obligations.RxTexpRequestsATimeout := by
  intro s
  refine ⟨fun armed => ?_, exec_rxTexp_notArmed⟩
  rw [exec_rxTexp_armed armed, State.reply]

end Sys2Proof.Machine
end

section
/-! PROOFS. The transmitter (43_transmit): when an upload is taken up (R160), and the two gaps of the frame (R164, R166). -/

namespace Sys2Proof.Machine

variable {s : State} {i : Instr}

/-! ## What `TX.UPLOAD` does once the sequencer is idle: neither branch asks whether the link is open -/

theorem exec_txUpload_idle (hi : s.txStage = .idle) (r : Bool) :
    exec (.txUpload r) s = if s.frmValid = false then .refused .noFrame else finish (s.beginUpload r) :=
  if_neg (not_not.2 hi)

theorem exec_txUpload_noFrame (hi : s.txStage = .idle) (hv : s.frmValid = false) (r : Bool) :
    exec (.txUpload r) s = .refused .noFrame := by
  rw [exec_txUpload_idle hi, if_pos hv]

theorem exec_txUpload_accepted (hi : s.txStage = .idle) (hv : s.frmValid = true) (r : Bool) :
    exec (.txUpload r) s = .next ((s.beginUpload r).reply .done) := by
  rw [exec_txUpload_idle hi, if_neg (Bool.ne_false_iff.2 hv), finish]

/-! ## A gap: `TX.STEP` and the stage's own row both run the stage, which waits and goes on -/

theorem exec_txStep (s : State) : exec .txStep s = execTxStep s := rfl

theorem exec_gapM (hi : i = .txStep ∨ i = .txStepGapM) (hs : s.txStage = .gapM) : exec i s = stageGapM s := by
  obtain rfl | rfl := hi
  · rw [exec_txStep, execTxStep, hs]
  · exact if_pos hs

theorem exec_gapS (hi : i = .txStep ∨ i = .txStepGapS) (hs : s.txStage = .gapS) : exec i s = stageGapS s := by
  obtain rfl | rfl := hi
  · rw [exec_txStep, execTxStep, hs]
  · exact if_pos hs

/-- The end shared by the stages that wait: the event records the register and what it held. DEV is not asked, so there is
no failing case. -/
theorem finish_doWait_toStage (s : State) (d : CfgReg) (stage : Stage) :
    finish ((s.doWait d).toStage stage) =
      .next { s with wire := s.wire ++ [.wait d (s.cfg d)], txStage := stage, report := .done } := rfl

/-! ## The obligations -/

/-- Settles O30: the two guards in their order, then the registers an accepted upload starts from. -/
theorem txUploadStarts : Obligations.TxUploadStarts := by
  intro s r
  refine ⟨fun hb => exec_txUpload_busy hb r, fun hi hv => exec_txUpload_noFrame hi hv r, fun hi hv => ?_⟩
  rw [exec_txUpload_accepted hi hv, State.beginUpload, State.reply]

/-- Settles O34: both gaps are one wait on `cfg.t_gap`; they differ in the stage that follows. -/
theorem gapStagesWait : Obligations.GapStagesWait := by
  intro s i
  constructor
  · intro hi hs
    rw [exec_gapM hi hs, stageGapM, finish_doWait_toStage, State.cfg]
  · intro hi hs
    rw [exec_gapS hi hs, stageGapS, finish_doWait_toStage, State.cfg]

end Sys2Proof.Machine
end

section
/-! PROOFS. The transport (44_link): what `LINK.DISC` discards, and what it fails (R192). -/

namespace Sys2Proof

/-! ## Every stage but two belongs to an upload -/

theorem Stage.uploading_of_ne {stage : Stage} (hidle : stage ≠ .idle) (hpulse : stage ≠ .rbPulse) :
    stage.uploading = true := by
  cases stage
  case idle => exact absurd rfl hidle
  case rbPulse => exact absurd rfl hpulse
  all_goals rfl

end Sys2Proof

namespace Sys2Proof.Machine

variable {s : State}

/-! ## How a stage of an upload fails -/

/-- Once a stage is known to be an upload's, `fail(S)` leaves what the statements call `failedAt`. -/
theorem failAt_eq_failedAt {stage : Stage} (hu : stage.uploading = true) :
    failAt stage s = .next (failedAt stage s) := by
  rw [failAt_uploading hu, failedAt]

/-! ## The three branches of `LINK.DISC`: the link first, then whether the sequencer is idle -/

theorem exec_linkDisc_closed (hl : s.linkOpen = false) : exec .linkDisc s = .refused .linkClosed := if_pos hl

theorem exec_linkDisc_open (hl : s.linkOpen = true) :
    exec .linkDisc s = if s.txStage = .idle then finish s.hangUp else failAt s.txStage s.hangUp :=
  if_neg (Bool.ne_false_iff.2 hl)

theorem exec_linkDisc_idle (hl : s.linkOpen = true) (hi : s.txStage = .idle) :
    exec .linkDisc s = .next (s.hangUp.reply .done) := by
  rw [exec_linkDisc_open hl, if_pos hi, finish]

/-- The stage that fails is the one about to run, and it fails on the state already hung up. -/
theorem exec_linkDisc_busy (hl : s.linkOpen = true) (hb : s.txStage ≠ .idle) :
    exec .linkDisc s = failAt s.txStage s.hangUp := by
  rw [exec_linkDisc_open hl, if_neg hb]

/-! ## The obligation -/

/-- Settles O51: a restart pulse and an upload fail by the same rule, each in its own case of `fail(S)`. -/
theorem linkDiscFailsTheUpload : Obligations.LinkDiscFailsTheUpload := by
  intro s
  refine ⟨exec_linkDisc_closed, ?idle, ?pulse, ?upload⟩
  case idle =>
    intro hl hi
    rw [exec_linkDisc_idle hl hi, State.hangUp, State.reply]
  case pulse =>
    intro hl hp
    have hb : s.txStage ≠ .idle := by rw [hp]; decide
    rw [exec_linkDisc_busy hl hb, hp, failAt_rbPulse, State.hangUp]
  case upload =>
    intro hl hb hp
    rw [exec_linkDisc_busy hl hb, failAt_eq_failedAt (Stage.uploading_of_ne hb hp), State.hangUp]

end Sys2Proof.Machine
end

section
/-! PROOFS. Decoding and encoding (30_encoding section 5): each is the inverse of the other. -/

namespace Sys2Proof

/-! ## The number of a code is in its own table -/

theorem Stage.ofCode_eq_some {n : Nat} {st : Stage} (h : Stage.ofCode n = some st) : n = st.code.toNat := by
  unfold Stage.ofCode at h
  split at h <;> cases h <;> rfl

theorem CfgReg.ofIndex_eq_some {n : Nat} {r : CfgReg} (h : CfgReg.ofIndex n = some r) : n = r.index.toNat := by
  unfold CfgReg.ofIndex at h
  split at h <;> cases h <;> rfl

/-! ## The encoding of a row that belongs to a table -/

theorem encode_stepRow {st : Stage} {i : Instr} (h : stepRow st = some i) : encode i = stepItem st := by
  cases st <;> cases h <;> rfl

theorem encode_cfgRow (v : Word) (r : CfgReg) : encode (cfgRow v r) = cfgItem r v := by
  cases r <;> rfl

/-- The four bytes of the word made from four bytes. -/
theorem le32_ofLe32 (b0 b1 b2 b3 : Byte) : le32 (ofLe32 b0 b1 b2 b3) = [b0, b1, b2, b3] := by
  have h0 : (ofLe32 b0 b1 b2 b3).extractLsb' 0 8 = b0 := BitVec.extractLsb'_append_eq_right
  have h1 : (ofLe32 b0 b1 b2 b3).extractLsb' 8 8 = b1 :=
    (BitVec.extractLsb'_append_eq_of_le (by decide)).trans BitVec.extractLsb'_append_eq_right
  have h2 : (ofLe32 b0 b1 b2 b3).extractLsb' 16 8 = b2 :=
    ((BitVec.extractLsb'_append_eq_of_le (by decide)).trans
      (BitVec.extractLsb'_append_eq_of_le (by decide))).trans BitVec.extractLsb'_append_eq_right
  have h3 : (ofLe32 b0 b1 b2 b3).extractLsb' 24 8 = b3 :=
    ((BitVec.extractLsb'_append_eq_of_le (by decide)).trans
      (BitVec.extractLsb'_append_eq_of_le (by decide))).trans BitVec.extractLsb'_append_eq_left
  rw [le32, h0, h1, h2, h3]

/-! ## What each part of the decoder accepts -/

theorem decodeBare_eq_ok {sel : Byte} {i j : Instr} {ops : List Byte} (h : decodeBare sel i ops = .ok j) :
    ops = [] ∧ j = i := by
  cases ops with
  | nil => cases h; exact ⟨rfl, rfl⟩
  | cons _ _ => cases h

theorem decodeCksByte_eq_ok {sel : Byte} {ops : List Byte} {i : Instr} (h : decodeCksByte sel ops = .ok i) :
    ∃ b, ops = [b] ∧ i = .cksByte b := by
  unfold decodeCksByte at h
  split at h <;> cases h
  exact ⟨_, rfl, rfl⟩

theorem decodeImgParse_eq_ok {sel : Byte} {ops : List Byte} {i : Instr} (h : decodeImgParse sel ops = .ok i) :
    (∃ t, ops = 0 :: t ∧ i = .imgParse (.text t)) ∨ (ops = [1] ∧ i = .imgParse .unreadable) := by
  cases ops with
  | nil => cases h
  | cons tag t =>
    unfold decodeImgParse at h
    dsimp only at h
    split at h
    next htag => cases h; exact .inl ⟨t, by rw [htag], rfl⟩
    next =>
      split at h
      next htag =>
        cases t with
        | nil => cases h; exact .inr ⟨by rw [htag], rfl⟩
        | cons _ _ => cases h
      next => cases h

theorem decodeCfgSet_eq_ok {sel : Byte} {ops : List Byte} {i : Instr} (h : decodeCfgSet sel ops = .ok i) :
    ∃ idx v, ops = idx :: le32 v ∧ i = .cfgSet idx v := by
  unfold decodeCfgSet at h
  split at h <;> cases h
  exact ⟨_, _, by rw [le32_ofLe32], rfl⟩

/-- The three cases of the operations that have operands, and the one of those that have none. -/
theorem encode_of_decodeSelector {sel : Byte} {ops : List Byte} {i : Instr} (h : decodeSelector sel ops = .ok i) :
    encode i = selItem sel ops := by
  have hsel (n : Nat) (hn : sel.toNat = n) : sel = BitVec.ofNat 8 n := by
    rw [← hn, BitVec.ofNat_toNat, BitVec.setWidth_eq]
  unfold decodeSelector at h
  split at h
  case h_2 hn => obtain ⟨b, rfl, rfl⟩ := decodeCksByte_eq_ok h; rw [hsel _ hn]; rfl
  case h_4 hn =>
    obtain ⟨t, rfl, rfl⟩ | ⟨rfl, rfl⟩ := decodeImgParse_eq_ok h
    · rw [hsel _ hn]; rfl
    · rw [hsel _ hn]; rfl
  case h_6 hn => cases h; rw [hsel _ hn]; rfl
  case h_7 hn => cases h; rw [hsel _ hn]; rfl
  case h_17 hn => obtain ⟨idx, v, rfl, rfl⟩ := decodeCfgSet_eq_ok h; rw [hsel _ hn]; rfl
  case h_18 => cases h
  all_goals
    rename_i hn
    obtain ⟨rfl, rfl⟩ := decodeBare_eq_ok h
    rw [hsel _ hn]; rfl

theorem encode_of_decodeStepStage {bs : List Byte} {i : Instr} (h : decodeStepStage bs = .ok i) :
    encode i = ⟨.stepStage, bs⟩ := by
  unfold decodeStepStage at h
  split at h
  next sel st =>
    split at h
    next hsel =>
      split at h <;> cases h
      next hrow =>
        obtain ⟨stage, hst, hrow⟩ := Option.bind_eq_some_iff.1 hrow
        have hb : st = stage.code.setWidth 8 :=
          BitVec.eq_of_toNat_eq (by rw [Stage.ofCode_eq_some hst, BitVec.toNat_setWidth_of_le (by decide)])
        rw [encode_stepRow hrow, stepItem, hsel, hb]
    next => cases h
  next => cases h

theorem encode_of_decodeCfgIndex {bs : List Byte} {i : Instr} (h : decodeCfgIndex bs = .ok i) :
    encode i = ⟨.cfgIndex, bs⟩ := by
  unfold decodeCfgIndex at h
  split at h
  next sel idx b0 b1 b2 b3 =>
    split at h
    next hsel =>
      split at h <;> cases h
      next r hr =>
        rw [encode_cfgRow, cfgItem, le32_ofLe32, hsel, BitVec.eq_of_toNat_eq (CfgReg.ofIndex_eq_some hr)]
    next => cases h
  next => cases h

theorem encode_of_decodeToken {bs : List Byte} {i : Instr} (h : decodeToken bs = .ok i) : encode i = ⟨.token, bs⟩ := by
  unfold decodeToken at h
  repeat' split at h
  all_goals cases h
  all_goals
    rename_i hbs
    rw [hbs]; rfl

theorem encode_of_decodeFrameField {bs : List Byte} {i : Instr} (h : decodeFrameField bs = .ok i) :
    encode i = ⟨.frameField, bs⟩ := by
  unfold decodeFrameField at h
  repeat' split at h
  all_goals cases h
  all_goals
    rename_i hbs
    rw [hbs]; rfl

/-- A one-byte code, whose table answers an instruction only at the number the encoder gives it. -/
theorem encode_of_decodeCode {p : Port} {find : Nat → Option Instr} {bs : List Byte} {i : Instr}
    (hfind : ∀ n i, find n = some i → encode i = ⟨p, [BitVec.ofNat 8 n]⟩) (h : decodeCode p find bs = .ok i) :
    encode i = ⟨p, bs⟩ := by
  unfold decodeCode at h
  split at h
  next b =>
    split at h <;> cases h
    next hb => rw [hfind _ _ hb, BitVec.ofNat_toNat, BitVec.setWidth_eq]
  next => cases h

theorem encode_severityRow (n : Nat) (i : Instr) (h : (Severity.ofCode n).map severityRow = some i) :
    encode i = ⟨.severityCode, [BitVec.ofNat 8 n]⟩ := by
  unfold Severity.ofCode at h
  split at h <;> cases h <;> rfl

theorem encode_stageRow (n : Nat) (i : Instr) (h : (Stage.ofCode n).map stageRow = some i) :
    encode i = ⟨.stageCode, [BitVec.ofNat 8 n]⟩ := by
  unfold Stage.ofCode at h
  split at h <;> cases h <;> rfl

theorem encode_statusRow (n : Nat) (i : Instr) (h : (Status.ofCode n).map statusRow = some i) :
    encode i = ⟨.statusCode, [BitVec.ofNat 8 n]⟩ := by
  unfold Status.ofCode at h
  split at h <;> cases h <;> rfl

theorem encode_errorRow (n : Nat) (i : Instr) (h : (ErrCode.ofCode n).map errorRow = some i) :
    encode i = ⟨.errorCode, [BitVec.ofNat 8 n]⟩ := by
  unfold ErrCode.ofCode at h
  split at h <;> cases h <;> rfl

/-! ## The obligations -/

/-- Settles O56: the round trip of each constructor. -/
theorem decodeInvertsEncode : Obligations.DecodeInvertsEncode := by
  intro i
  cases i
  case cksByte b => exact Laws.RoundTrip.cksByte b
  case imgParse source => exact Laws.RoundTrip.imgParse source
  case payLoad bytes => exact Laws.RoundTrip.payLoad bytes
  case rxBytes chunk => exact Laws.RoundTrip.rxBytes chunk
  case txUpload r => exact Laws.RoundTrip.txUpload r
  case cfgSet idx v => exact Laws.RoundTrip.cfgSet idx v
  case cfgSetTDown v => exact Laws.RoundTrip.cfgSetTDown v
  case cfgSetTSettle v => exact Laws.RoundTrip.cfgSetTSettle v
  case cfgSetTGap v => exact Laws.RoundTrip.cfgSetTGap v
  case cfgSetChunk v => exact Laws.RoundTrip.cfgSetChunk v
  case cfgSetTSample v => exact Laws.RoundTrip.cfgSetTSample v
  case cfgSetTQuiet v => exact Laws.RoundTrip.cfgSetTQuiet v
  case cfgSetTRestart v => exact Laws.RoundTrip.cfgSetTRestart v
  all_goals rfl

/-- Settles O57: the port says which part of the decoder answered. -/
theorem encodeInvertsDecode : Obligations.EncodeInvertsDecode := by
  rintro ⟨port, bs⟩ i h
  cases port with
  | selector =>
    cases bs with
    | nil => cases h
    | cons sel ops => exact encode_of_decodeSelector h
  | stepStage => exact encode_of_decodeStepStage h
  | cfgIndex => exact encode_of_decodeCfgIndex h
  | token => exact encode_of_decodeToken h
  | frameField => exact encode_of_decodeFrameField h
  | severityCode => exact encode_of_decodeCode encode_severityRow h
  | stageCode => exact encode_of_decodeCode encode_stageRow h
  | statusCode => exact encode_of_decodeCode encode_statusRow h
  | errorCode => exact encode_of_decodeCode encode_errorRow h

/-- Settles O58: five items, decoded by evaluation. -/
theorem selectorWordsDecode : Obligations.SelectorWordsDecode := by
  refine ⟨rfl, rfl, rfl, ?_, rfl⟩
  decide

end Sys2Proof
end

section
/-! PROOFS. The Checksum Engine over whole inputs (40_crc R90, R94, R97 to R100). -/

namespace Sys2Proof.Machine

/-! ## Turns of the recurrence -/

/-- An entry whose low bits are 0 is shifted out unchanged: no turn meets a 1. -/
theorem crcShifts_of_low_zero (poly : Word) :
    ∀ (n : Nat) (x : Word), (∀ k < n, x.getLsbD k = false) → crcShifts poly n x = x >>> n := by
  intro n
  induction n with
  | zero => intro x _; exact (BitVec.ushiftRight_zero x).symm
  | succ n ih =>
    intro x hx
    have hturn : crcShift poly x = x >>> 1 := by
      rw [crcShift, hx 0 (Nat.succ_pos n)]; rfl
    have hlow : ∀ k < n, (x >>> 1).getLsbD k = false := fun k hk => by
      rw [BitVec.getLsbD_ushiftRight]; exact hx _ (by omega)
    rw [crcShifts, hturn, ih _ hlow, ← BitVec.shiftRight_add, Nat.add_comm]

theorem crcShifts_add (poly : Word) (n : Nat) : ∀ (m : Nat) (x : Word),
    crcShifts poly (m + n) x = crcShifts poly n (crcShifts poly m x) := by
  intro m
  induction m with
  | zero => intro x; rw [Nat.zero_add, crcShifts]
  | succ m ih => intro x; rw [Nat.succ_add, crcShifts, ih, crcShifts]

/-! ## The table -/

theorem tableEntry_zero (poly : Word) : tableEntry poly 0 = 0 := by
  rw [tableEntry, crcShifts_of_low_zero poly 8 _ (by decide)]; rfl

/-- Seven turns bring the only bit of 0x80 to the bottom; the eighth shifts it out. -/
theorem tableEntry_0x80 (poly : Word) : tableEntry poly 0x80 = poly := by
  have h7 : crcShifts poly 7 ((0x80 : Byte).setWidth 32) = 1 := crcShifts_of_low_zero poly 7 _ (by decide)
  have h1 : crcShifts poly 1 1 = poly := BitVec.zero_xor
  rw [tableEntry, crcShifts_add poly 1 7, h7, h1]

/-- A byte reaches the low eight bits only. -/
theorem xor_byte_ushiftRight (x : Word) (b : Byte) : (x ^^^ b.setWidth 32) >>> 8 = x >>> 8 := by
  rw [BitVec.ushiftRight_xor_distrib]
  apply BitVec.eq_of_getLsbD_eq
  intro k _
  simp

/-- The entry of an index is its eight turns, so eight turns of any word split into its low byte's entry and the rest
shifted down (40_crc R97). -/
theorem crcShifts_eight (poly x : Word) :
    crcShifts poly 8 x = (x >>> 8) ^^^ tableEntry poly (x.extractLsb' 0 8) := by
  have hlow : ∀ k < 8, (x ^^^ (x.extractLsb' 0 8).setWidth 32).getLsbD k = false := fun k hk => by
    simp [hk, show k < 32 by omega]
  have hsplit : x = (x ^^^ (x.extractLsb' 0 8).setWidth 32) ^^^ (x.extractLsb' 0 8).setWidth 32 := by
    rw [BitVec.xor_assoc, BitVec.xor_self, BitVec.xor_zero]
  calc crcShifts poly 8 x
      = crcShifts poly 8 (x ^^^ (x.extractLsb' 0 8).setWidth 32) ^^^ tableEntry poly (x.extractLsb' 0 8) := by
        rw [tableEntry, ← crcShifts_xor, ← hsplit]
    _ = (x >>> 8) ^^^ tableEntry poly (x.extractLsb' 0 8) := by
        rw [crcShifts_of_low_zero poly 8 _ hlow, xor_byte_ushiftRight]

/-! ## The update of the accumulator -/

theorem crcByte_eq_crcShifts (poly crc : Word) (b : Byte) :
    crcByte poly crc b = crcShifts poly 8 (crc ^^^ b.setWidth 32) := by
  rw [crcShifts_eight, crcByte, xor_byte_ushiftRight]

/-- A byte equal to the accumulator's low byte picks entry 0 (40_crc R99). -/
theorem crcByte_of_low_eq (poly crc : Word) (b : Byte) (h : (crc ^^^ b.setWidth 32).extractLsb' 0 8 = 0) :
    crcByte poly crc b = crc >>> 8 := by
  rw [crcByte, h, tableEntry_zero]; exact BitVec.xor_zero

/-- Each step from 0xFFFFFFFF by a byte 0xFF shifts eight ones out and takes nothing from the table. -/
theorem crcByte_ones (poly : Word) :
    crcByte poly 0xFFFFFFFF 0xFF = 0x00FFFFFF ∧ crcByte poly 0x00FFFFFF 0xFF = 0x0000FFFF ∧
      crcByte poly 0x0000FFFF 0xFF = 0x000000FF ∧ crcByte poly 0x000000FF 0xFF = 0 := by
  refine ⟨?_, ?_, ?_, ?_⟩ <;> rw [crcByte_of_low_eq poly _ _ (by decide)] <;> rfl

/-! ## Reading A leaves the top five bits of the accumulator 0 -/

/-- The top five bits, above the highest bit of `POLY_R` under reading A, are 0. -/
def topFiveClear (x : Word) : Prop := x.toNat < 2 ^ 27

theorem topFiveClear_shift (x : Word) (n : Nat) (hn : 5 ≤ n) : topFiveClear (x >>> n) := by
  rw [topFiveClear, BitVec.toNat_ushiftRight, Nat.shiftRight_eq_div_pow]
  have hp : 2 ^ 5 ≤ 2 ^ n := Nat.pow_le_pow_right (by decide) hn
  exact Nat.div_lt_of_lt_mul (lt_of_lt_of_le x.isLt (Nat.mul_le_mul_right (2 ^ 27) hp))

theorem topFiveClear_xor {x y : Word} (hx : topFiveClear x) (hy : topFiveClear y) : topFiveClear (x ^^^ y) := by
  rw [topFiveClear, BitVec.toNat_xor]; exact Nat.xor_lt_two_pow hx hy

theorem topFiveClear_crcShifts : ∀ (n : Nat) (x : Word), topFiveClear x → topFiveClear (crcShifts 0x04C11DB7 n x) := by
  intro n
  induction n with
  | zero => intro x hx; exact hx
  | succ n ih =>
    intro x hx
    have hhalf : topFiveClear (x >>> 1) := by
      rw [topFiveClear, BitVec.toNat_ushiftRight, Nat.shiftRight_eq_div_pow]
      exact lt_of_le_of_lt (Nat.div_le_self _ _) hx
    have hpoly : topFiveClear 0x04C11DB7 := by unfold topFiveClear; decide
    apply ih
    unfold crcShift
    split
    · exact topFiveClear_xor hhalf hpoly
    · exact hhalf

/-- Whatever the accumulator held (40_crc R100). -/
theorem topFiveClear_crcByte (crc : Word) (b : Byte) : topFiveClear (crcByte 0x04C11DB7 crc b) := by
  have hindex (i : Byte) : topFiveClear (i.setWidth 32) := by
    rw [topFiveClear, BitVec.toNat_setWidth_of_le (by decide)]
    exact lt_of_lt_of_le i.isLt (by decide)
  exact topFiveClear_xor (topFiveClear_shift crc 8 (by decide)) (topFiveClear_crcShifts 8 _ (hindex _))

/-! ## `CKS.SUM` -/

theorem execAll_cons_next {i : Instr} {is : List Instr} {s t : State} (h : exec i s = .next t) :
    execAll (i :: is) s = execAll is t := by
  rw [execAll, h]

theorem execAll_singleton_next {i : Instr} {s t : State} (h : exec i s = .next t) : execAll [i] s = .next t := by
  rw [execAll_cons_next h, execAll]

/-- The bytes of a sum, one after the other, then the complement. -/
theorem execAll_cksBytes_cksRead (bs : List Byte) : ∀ s : State,
    execAll (bs.map .cksByte ++ [.cksRead]) s =
      .next ({ s with crc := crcBytes s.params.polyR s.crc bs }.reply
        (.word (~~~ crcBytes s.params.polyR s.crc bs))) := by
  induction bs with
  | nil => intro s; exact execAll_singleton_next (exec_cksRead s)
  | cons b bs ih =>
    intro s
    rw [List.map_cons, List.cons_append, execAll_cons_next (exec_cksByte b s), ih]
    rfl

/-! ## The obligations -/

/-- Settles O3: eight turns are one table entry beside the shifted rest. -/
theorem cksByteIsBitSerial : Obligations.CksByteIsBitSerial := by
  intro s b
  rw [exec_cksByte, crcByte_eq_crcShifts, State.reply]

/-- Settles O4: two entries for every `POLY_R`, four by evaluation. -/
theorem tableEntriesAreAsPrinted : Obligations.TableEntriesAreAsPrinted :=
  ⟨fun poly => ⟨tableEntry_zero poly, tableEntry_0x80 poly⟩, by decide, by decide, by decide, by decide⟩

/-- Settles O6: the accumulator is set first, so what it held does not matter. -/
theorem cksSumDependsOnJoinedParts : Obligations.CksSumDependsOnJoinedParts := by
  intro s parts
  rw [cksSum, cksSumOps, execAll_cons_next (exec_cksInit s), execAll_cksBytes_cksRead, not_eq_xor_ones]
  rfl

/-- Settles O7: no byte 0xFF meets a table entry other than entry 0. -/
theorem sumsOfNothingAndOfOnes : Obligations.SumsOfNothingAndOfOnes := by
  intro poly
  obtain ⟨h1, h2, h3, h4⟩ := crcByte_ones poly
  simp only [checksum, crcBytes_nil, crcBytes_cons, Config.crcInit, h1, h2, h3, h4]
  decide

/-- Settles O8: four sums by evaluation. -/
theorem knownChecksums : Obligations.KnownChecksums := by
  refine ⟨?_, ?_, ?_, ?_⟩ <;> decide +kernel

/-- Settles O9: the last byte alone clears the five bits. -/
theorem topBitsUnderReadingA : Obligations.TopBitsUnderReadingA := by
  intro bs hbs
  obtain ⟨init, last, rfl⟩ := (List.eq_nil_or_concat' bs).resolve_left hbs
  have hclear : topFiveClear (crcBytes 0x04C11DB7 Config.crcInit (init ++ [last])) := by
    rw [crcBytes_append]; exact topFiveClear_crcByte _ last
  rw [topFiveClear] at hclear
  rw [checksum, BitVec.toNat_not]
  omega

end Sys2Proof.Machine
end

section
/-! PROOFS. The stages of the transmitter (43_transmit R161 to R176): the next state of each, as DEV answers. -/

namespace Sys2Proof.Machine

variable {s : State} {i : Instr}

/-! ## The state once DEV has answered -/

theorem State.answeredWith_nil (s : State) : s.answeredWith [] = s.answered := by
  rw [State.answeredWith, List.append_nil]; rfl

theorem State.answered_push (s : State) (e : WireEvent) : s.answered.push e = s.answeredWith [e] := rfl

/-- A front of no byte makes no event; with something to write that happens only at `k = 0`. -/
theorem State.answered_pushFront (s : State) {bytes : List Byte} (hb : bytes ≠ []) (k : Nat) :
    s.answered.pushFront bytes k = s.answeredWith (frontEvents bytes k) := by
  rw [State.pushFront, frontEvents]
  by_cases hk : k = 0
  · rw [if_pos hk, if_pos (by rw [hk]; rfl), State.answeredWith_nil]
  · have htake : bytes.take k ≠ [] := by simp [List.take_eq_nil_iff, hk, hb]
    rw [if_neg hk, if_neg htake, State.answered_push]

/-! ## A question to DEV, in the three ways it can end -/

theorem State.chanWrite_ok (ho : s.linkOpen = true) (ha : s.answer = .ok) (bytes : List Byte) :
    s.chanWrite bytes = (true, s.answeredWith [.write bytes]) := State.chanWrite_true.2 ⟨ho, ha, rfl⟩

theorem State.chanWrite_fail (ho : s.linkOpen = true) {k : Nat} (ha : s.answer = .fail k) {bytes : List Byte}
    (hb : bytes ≠ []) : s.chanWrite bytes = (false, s.answeredWith (frontEvents bytes k)) :=
  State.chanWrite_false.2 (.inr ⟨ho, k, ha, (s.answered_pushFront hb k).symm⟩)

theorem State.chanWrite_closed (hc : s.linkOpen = false) (bytes : List Byte) : s.chanWrite bytes = (false, s) :=
  State.chanWrite_false.2 (.inl ⟨hc, rfl⟩)

theorem State.lineSet_ok (ho : s.linkOpen = true) (ha : s.answer = .ok) (x : Line) (level : Level) :
    s.lineSet x level = (true, (s.answeredWith [.line x level]).setLine x level) :=
  State.lineSet_true.2 ⟨ho, ha, by cases x <;> rfl⟩

theorem State.lineSet_fail (ho : s.linkOpen = true) {k : Nat} (ha : s.answer = .fail k) (x : Line) (level : Level) :
    s.lineSet x level = (false, s.answeredWith []) :=
  State.lineSet_false.2 (.inr ⟨ho, ⟨k, ha⟩, s.answeredWith_nil⟩)

theorem State.lineSet_closed (hc : s.linkOpen = false) (x : Line) (level : Level) : s.lineSet x level = (false, s) :=
  State.lineSet_false.2 (.inl ⟨hc, rfl⟩)

/-! ## A stage that asks DEV, in the same three ways -/

theorem withWrite_true {stage : Stage} {bytes : List Byte} {rest : State → Result} {u : State}
    (h : s.chanWrite bytes = (true, u)) : withWrite stage bytes rest s = rest u := by
  rw [withWrite, h]

theorem withWrite_false {stage : Stage} {bytes : List Byte} {rest : State → Result} {u : State}
    (h : s.chanWrite bytes = (false, u)) : withWrite stage bytes rest s = failAt stage u := by
  rw [withWrite, h]

theorem withLine_true {stage : Stage} {x : Line} {level : Level} {rest : State → Result} {u : State}
    (h : s.lineSet x level = (true, u)) : withLine stage x level rest s = rest u := by
  rw [withLine, h]

theorem withLine_false {stage : Stage} {x : Line} {level : Level} {rest : State → Result} {u : State}
    (h : s.lineSet x level = (false, u)) : withLine stage x level rest s = failAt stage u := by
  rw [withLine, h]

/-- A stage of an upload that writes (43_transmit R170, R171). -/
theorem withWrite_outcomes {stage : Stage} (hu : stage.uploading = true) {bytes : List Byte} (hb : bytes ≠ [])
    {rest : State → Result} {t : State} (hrest : rest (s.answeredWith [.write bytes]) = .next t) :
    (s.linkOpen = true → s.answer = .ok → withWrite stage bytes rest s = .next t) ∧
    (s.linkOpen = true → ∀ k, s.answer = .fail k → withWrite stage bytes rest s =
      .next (failedAt stage (s.answeredWith (frontEvents bytes k)))) ∧
    (s.linkOpen = false → withWrite stage bytes rest s = .next (failedAt stage s)) := by
  refine ⟨fun ho ha => ?ok, fun ho k ha => ?fail, fun hc => ?closed⟩
  case ok => rw [withWrite_true (State.chanWrite_ok ho ha bytes), hrest]
  case fail => rw [withWrite_false (State.chanWrite_fail ho ha hb), failAt_eq_failedAt hu]
  case closed => rw [withWrite_false (State.chanWrite_closed hc bytes), failAt_eq_failedAt hu]

/-- A stage of an upload that drives a line (43_transmit R182, R171). -/
theorem withLine_outcomes {stage : Stage} (hu : stage.uploading = true) {x : Line} {level : Level}
    {rest : State → Result} {t : State}
    (hrest : rest ((s.answeredWith [.line x level]).setLine x level) = .next t) :
    (s.linkOpen = true → s.answer = .ok → withLine stage x level rest s = .next t) ∧
    (s.linkOpen = true → ∀ k, s.answer = .fail k → withLine stage x level rest s =
      .next (failedAt stage (s.answeredWith []))) ∧
    (s.linkOpen = false → withLine stage x level rest s = .next (failedAt stage s)) := by
  refine ⟨fun ho ha => ?ok, fun ho k ha => ?fail, fun hc => ?closed⟩
  case ok => rw [withLine_true (State.lineSet_ok ho ha x level), hrest]
  case fail => rw [withLine_false (State.lineSet_fail ho ha x level), failAt_eq_failedAt hu]
  case closed => rw [withLine_false (State.lineSet_closed hc x level), failAt_eq_failedAt hu]

/-- The wait after a line change is one event more (43_transmit R177). -/
theorem State.doWait_setLine_answeredWith (s : State) (x : Line) (level : Level) (d : CfgReg) :
    ((s.answeredWith [.line x level]).setLine x level).doWait d =
      (s.answeredWith [.line x level, .wait d (s.cfg d)]).setLine x level := by
  have hwire : s.wire ++ [.line x level] ++ [.wait d (s.cfg d)] =
      s.wire ++ [.line x level, .wait d (s.cfg d)] := List.append_assoc _ _ _
  cases x
  · exact congrArg (fun w => { s.answered with lineA := level, wire := w }) hwire
  · exact congrArg (fun w => { s.answered with lineB := level, wire := w }) hwire

/-! ## `TX.STEP` and the rows of its stages -/

theorem exec_stepRow {st : Stage} (h : stepRow st = some i) (s : State) :
    exec i s = if s.txStage = st then exec .txStep s else .refused (.otherStage s.txStage) := by
  have hrow (act : State → Result) (hact : s.txStage = st → act s = exec .txStep s) :
      inStage st act s = if s.txStage = st then exec .txStep s else .refused (.otherStage s.txStage) := by
    rw [inStage]
    split
    next hs => exact hact hs
    next => rfl
  cases st <;> cases h <;> exact hrow _ fun hs => by rw [exec_txStep, execTxStep, hs]

/-- In its stage a row is `TX.STEP`. -/
theorem exec_stepOrRow {st : Stage} {row : Instr} (hi : i = .txStep ∨ i = row) (hrow : stepRow st = some row)
    (hs : s.txStage = st) : exec i s = exec .txStep s := by
  obtain rfl | rfl := hi
  · rfl
  · rw [exec_stepRow hrow, if_pos hs]

theorem exec_txRestart_idle (hi : s.txStage = .idle) :
    exec .txRestart s = match ({ s with txErr := .none } : State).lineSet .b .active with
      | (true, t) => finish ((t.doWait .tRestart).toStage .rbPulse)
      | (false, t) => raise (.transportError .rbPulse) { t with txErr := .transportError } :=
  if_neg (not_not.2 hi)

theorem exec_txRestart_true (hi : s.txStage = .idle) {u : State}
    (h : ({ s with txErr := .none } : State).lineSet .b .active = (true, u)) :
    exec .txRestart s = finish ((u.doWait .tRestart).toStage .rbPulse) := by
  rw [exec_txRestart_idle hi, h]

theorem exec_txRestart_false (hi : s.txStage = .idle) {u : State}
    (h : ({ s with txErr := .none } : State).lineSet .b .active = (false, u)) :
    exec .txRestart s = raise (.transportError .rbPulse) { u with txErr := .transportError } := by
  rw [exec_txRestart_idle hi, h]

/-! ## Stage `PAYLOAD` -/

theorem stagePayload_read {bytes : List Byte} (h : s.payRead s.txSent.toNat s.chunkLength = .ok bytes) :
    stagePayload s = withWrite .payload bytes (fun t => finish (t.chunkSent s.chunkLength)) s := by
  rw [stagePayload, h]

theorem State.chunkLength_le (s : State) : s.chunkLength ≤ s.frmSize.toNat - s.txSent.toNat := Nat.min_le_right _ _

/-- The count of sent bytes does not pass the size, so it does not wrap (43_transmit R167). -/
theorem State.chunkSent_txSent_toNat (hs : s.txSent.toNat ≤ s.frmSize.toNat) :
    (BitVec.ofNat 32 (s.txSent.toNat + s.chunkLength)).toNat = s.txSent.toNat + s.chunkLength := by
  have hle := s.chunkLength_le
  have hlt := s.frmSize.isLt
  rw [BitVec.toNat_ofNat, Nat.mod_eq_of_lt (by omega)]

/-- With something left to send and a chunk size of 1 or more, a chunk is not empty. -/
theorem State.chunkLength_pos (hc : s.cfgChunk ≠ 0) (hs : s.txSent.toNat < s.frmSize.toNat) : 0 < s.chunkLength := by
  have hpos := BitVec.toNat_pos_of_ne_zero hc
  rw [State.chunkLength]; omega

/-! ## The obligations -/

/-- Settles O31: one line change, answered in its three ways. -/
theorem stageRstLowAssertsLineA : Obligations.StageRstLowAssertsLineA := by
  intro s i hi hs
  have he : exec i s = stageRstLow s := by rw [exec_stepOrRow hi rfl hs, exec_txStep, execTxStep, hs]
  rw [he]
  exact withLine_outcomes rfl
    (congrArg (fun u => finish (u.toStage .rstSettle)) (s.doWait_setLine_answeredWith .a .active .tDown))

/-- Settles O32: one line change, answered in its three ways. -/
theorem stageRstSettleReleasesLineA : Obligations.StageRstSettleReleasesLineA := by
  intro s i hi hs
  have he : exec i s = stageRstSettle s := by rw [exec_stepOrRow hi rfl hs, exec_txStep, execTxStep, hs]
  rw [he]
  exact withLine_outcomes rfl
    (congrArg (fun u => finish (u.toStage .magic)) (s.doWait_setLine_answeredWith .a .inactive .tSettle))

/-- Settles O33: one write of four bytes, answered in its three ways. -/
theorem stageMagicWritesTheMagic : Obligations.StageMagicWritesTheMagic := by
  intro s i hi hs
  have he : exec i s = stageMagic s := by rw [exec_stepOrRow hi rfl hs, exec_txStep, execTxStep, hs]
  rw [he]
  exact withWrite_outcomes rfl (by decide) rfl

/-- Settles O35: one write of four bytes, answered in its three ways. -/
theorem stageSizeWritesTheSize : Obligations.StageSizeWritesTheSize := by
  intro s i hi hs
  have he : exec i s = stageSize s := by rw [exec_stepOrRow hi rfl hs, exec_txStep, execTxStep, hs]
  rw [he]
  exact withWrite_outcomes rfl (List.cons_ne_nil _ _) rfl

/-- Settles O36: the bytes are read, so the stage is a write of a non-empty chunk. -/
theorem stagePayloadWritesAChunk : Obligations.StagePayloadWritesAChunk := by
  intro s i n bytes hi hs hw hmax hc hsent hn hlen hread
  have hn' : s.chunkLength = n := hn.symm
  have hle : n ≤ s.frmSize.toNat - s.txSent.toNat := hn' ▸ s.chunkLength_le
  have hrun : s.payRead s.txSent.toNat s.chunkLength = .ok bytes := by
    rw [hn']
    exact State.payRead_ok.2 ⟨by omega, (Memory.readRun_eq_some hw _ _ _).2 ⟨hlen, hread⟩⟩
  have hb : bytes ≠ [] := List.ne_nil_of_length_pos (by rw [hlen, ← hn']; exact State.chunkLength_pos hc hsent)
  have he : exec i s = withWrite .payload bytes (fun t => finish (t.chunkSent s.chunkLength)) s := by
    rw [exec_stepOrRow hi rfl hs, exec_txStep, execTxStep, hs, ← stagePayload_read hrun]
  have hsum := State.chunkSent_txSent_toNat hsent.le
  rw [he, hn']
  rw [hn'] at hsum
  obtain ⟨hok, hfail, hclosed⟩ := withWrite_outcomes (s := s) (stage := .payload) rfl hb
    (rest := fun t => finish (t.chunkSent n)) rfl
  refine ⟨fun ho ha => ⟨Config.throughput s.answered.draws, Config.remainingTime s.answered.draws, ?_⟩, hfail, hclosed⟩
  rw [hok ho ha]
  have hword : s.txSent + BitVec.ofNat 32 n = BitVec.ofNat 32 (s.txSent.toNat + n) := by
    rw [BitVec.ofNat_add, BitVec.ofNat_toNat, BitVec.setWidth_eq]
  have hall : (BitVec.ofNat 32 (s.txSent.toNat + n) = s.frmSize) = (s.txSent.toNat + n = s.frmSize.toNat) := by
    rw [← BitVec.toNat_inj, hsum]
  have hprogress : BitVec.ofNat 7 (100 * (s.txSent.toNat + n) / s.frmSize.toNat) =
      progressOf (BitVec.ofNat 32 (s.txSent.toNat + n)) s.frmSize := by rw [progressOf, hsum]
  simp only [hword, hprogress, ← hall]
  rfl

/-- Settles O37: one write of four bytes, answered in its three ways. -/
theorem stageCksumCompletes : Obligations.StageCksumCompletes := by
  intro s i hi hs
  have he : exec i s = stageCksum s := by rw [exec_stepOrRow hi rfl hs, exec_txStep, execTxStep, hs]
  rw [he]
  exact withWrite_outcomes rfl (List.cons_ne_nil _ _) rfl

/-- Settles O38: the pulse asks DEV twice, once to assert the line and once to release it. -/
theorem restartPulsesLineB : Obligations.RestartPulsesLineB := by
  intro s
  refine ⟨exec_txRestart_busy, fun hi ho ha => ?assert, fun hi ho k ha => ?assertFails, fun hi hc => ?assertClosed,
    fun i hi hs => ?release⟩
  case assert =>
    rw [exec_txRestart_true hi (State.lineSet_ok (s := { s with txErr := .none }) ho ha .b .active)]
    exact congrArg (fun u => finish (u.toStage .rbPulse))
      (State.doWait_setLine_answeredWith { s with txErr := .none } .b .active .tRestart)
  case assertFails =>
    exact exec_txRestart_false hi (State.lineSet_fail (s := { s with txErr := .none }) ho ha .b .active)
  case assertClosed =>
    rw [exec_txRestart_false hi (State.lineSet_closed (s := { s with txErr := .none }) hc .b .active)]; rfl
  case release =>
    have he : exec i s = stageRbPulse s := by rw [exec_stepOrRow hi rfl hs, exec_txStep, execTxStep, hs]
    rw [he]
    exact ⟨fun ho ha => withLine_true (State.lineSet_ok ho ha .b .inactive),
      fun ho k ha => withLine_false (State.lineSet_fail ho ha .b .inactive),
      fun hc => withLine_false (State.lineSet_closed hc .b .inactive)⟩

/-- Settles O39: each row names its stage. -/
theorem stepRowsBelongToTheirStage : Obligations.StepRowsBelongToTheirStage := by
  intro s
  refine ⟨fun hi => by rw [exec_txStep, execTxStep, hi], fun i stage hmem => ?_⟩
  have hrow : stepRow stage = some i := by
    fin_cases hmem <;> rfl
  rw [exec_stepRow hrow]
  exact ⟨fun hs => if_pos hs, fun hs => if_neg hs⟩

/-- Settles O60: the level a stage sets is the voltage on its line. -/
theorem lineVoltages : Obligations.LineVoltages := by
  intro s
  have lineA_of_active (u : State) (h : u.lineA = .active) : u.lineAVoltage = .low := by rw [State.lineAVoltage, h]
  have lineA_of_inactive (u : State) (h : u.lineA = .inactive) : u.lineAVoltage = .high := by
    rw [State.lineAVoltage, h]
  have lineB_of_active (u : State) (h : u.lineB = .active) : u.lineBVoltage = u.params.lineBActive := by
    rw [State.lineBVoltage, h]
  have lineB_of_inactive (u : State) (h : u.lineB = .inactive) : u.lineBVoltage ≠ u.params.lineBActive := by
    rw [State.lineBVoltage, h]
    cases u.params.lineBActive <;> decide
  refine ⟨lineA_of_active s, lineA_of_inactive s, lineB_of_active s, lineB_of_inactive s, fun ho ha => ⟨?_, ?_, ?_, ?_⟩⟩
  · intro hs
    obtain ⟨hok, -⟩ := stageRstLowAssertsLineA s .txStep (.inl rfl) hs
    exact ⟨_, hok ho ha, lineA_of_active _ rfl⟩
  · intro hs
    obtain ⟨hok, -⟩ := stageRstSettleReleasesLineA s .txStep (.inl rfl) hs
    exact ⟨_, hok ho ha, lineA_of_inactive _ rfl⟩
  · intro hs
    obtain ⟨-, hok, -⟩ := restartPulsesLineB s
    exact ⟨_, hok hs ho ha, lineB_of_active _ rfl⟩
  · intro hs
    obtain ⟨-, -, -, -, hrelease⟩ := restartPulsesLineB s
    obtain ⟨hok, -⟩ := hrelease .txStep (.inl rfl) hs
    exact ⟨_, hok ho ha, lineB_of_inactive _ rfl⟩

end Sys2Proof.Machine
end

section
/-! PROOFS. The link and the configuration (44_link R190, R191, R194), and the rows that only report (30_encoding
section 4, 41_frame_build R113). -/

namespace Sys2Proof.Machine

variable {s : State}

/-! ## Opening and closing -/

theorem exec_linkOpen_open (ho : s.linkOpen = true) : exec .linkOpen s = .refused .linkAlreadyOpen := if_pos ho

theorem exec_linkOpen_closed (hc : s.linkOpen = false) :
    exec .linkOpen s = .next ({ s.answered with linkOpen := opened s.answer }.reply (linkReport s.answer)) :=
  if_neg (Bool.not_eq_true _ ▸ hc)

theorem exec_linkClose_closed (hc : s.linkOpen = false) : exec .linkClose s = .refused .linkClosed := if_pos hc

theorem exec_linkClose_open (ho : s.linkOpen = true) :
    exec .linkClose s = .next (s.answered.hangUp.reply (linkReport s.answer)) := if_neg (Bool.ne_false_iff.2 ho)

/-! ## Writing a configuration register: the index and the row name the same register -/

theorem CfgReg.ofIndex_index (r : CfgReg) : CfgReg.ofIndex r.index.toNat = some r := by cases r <;> rfl

theorem CfgReg.ofIndex_eq_none {n : Nat} (h : 6 < n) : CfgReg.ofIndex n = none := by
  unfold CfgReg.ofIndex
  split
  case h_8 => rfl
  all_goals omega

theorem exec_cfgRow (r : CfgReg) (v : Word) (s : State) : exec (cfgRow v r) s = configure r v s := by
  cases r <;> rfl

theorem configure_busy (h : s.txStage ≠ .idle) (r : CfgReg) (v : Word) :
    configure r v s = .refused .sequencerBusy := if_pos h

theorem exec_cfgSet_idle (hi : s.txStage = .idle) (idx : Byte) (v : Word) :
    exec (.cfgSet idx v) s = match CfgReg.ofIndex idx.toNat with
      | none => .refused .noSuchRegister
      | some r => configure r v s := if_neg (not_not.2 hi)

theorem exec_cfgSet_index (r : CfgReg) (v : Word) (s : State) :
    exec (.cfgSet r.index v) s = configure r v s := by
  by_cases hi : s.txStage = .idle
  · rw [exec_cfgSet_idle hi, CfgReg.ofIndex_index]
  · rw [exec_cfgSet_busy hi, configure_busy hi]

theorem exec_cfgSet_noSuchRegister (hi : s.txStage = .idle) {idx : Byte} (h : 6 < idx.toNat) (v : Word) :
    exec (.cfgSet idx v) s = .refused .noSuchRegister := by
  rw [exec_cfgSet_idle hi, CfgReg.ofIndex_eq_none h]

theorem configure_zeroChunk (hi : s.txStage = .idle) : configure .chunk 0 s = .refused .zeroChunk := by
  rw [configure, if_neg (not_not.2 hi), if_pos ⟨rfl, rfl⟩]

theorem exec_configures {i : Instr} {r : CfgReg} {v : Word} (h : i ∈ [Instr.cfgSet r.index v, cfgRow v r]) :
    exec i s = configure r v s := by
  obtain rfl | rfl := List.mem_pair.1 h
  · exact exec_cfgSet_index r v s
  · exact exec_cfgRow r v s

/-- Both ways of writing a register, with a legal value. -/
theorem exec_configures_ok {i : Instr} {r : CfgReg} {v : Word} (hi : s.txStage = .idle) (hv : ¬ (r = .chunk ∧ v = 0))
    (h : i ∈ [Instr.cfgSet r.index v, cfgRow v r]) : exec i s = .next ((s.setCfg v r).reply .done) := by
  rw [exec_configures h]; exact configure_next.2 ⟨hi, hv, rfl⟩

/-! ## The obligations -/

/-- Settles O49: the answer decides `link.open` and the report. -/
theorem linkOpenAsksThePlatform : Obligations.LinkOpenAsksThePlatform := by
  intro s
  refine ⟨exec_linkOpen_open, fun hc ha => ?_, fun hc k ha => ?_⟩
  · rw [exec_linkOpen_closed hc, ha, ← State.answeredWith_nil]; rfl
  · have hopened : opened (.fail k) = s.linkOpen := hc.symm
    rw [exec_linkOpen_closed hc, ha, hopened, ← State.answeredWith_nil]; rfl

/-- Settles O50: the answer decides the report and nothing else. -/
theorem linkCloseDiscardsTheFragment : Obligations.LinkCloseDiscardsTheFragment := by
  intro s
  refine ⟨exec_linkClose_closed, fun ho ha => ?_, fun ho k ha => ?_⟩
  · rw [exec_linkClose_open ho, ha, ← State.answeredWith_nil]; rfl
  · rw [exec_linkClose_open ho, ha, ← State.answeredWith_nil]; rfl

/-- Settles O52: every clause is one register. -/
theorem cfgSetWritesOneRegister : Obligations.CfgSetWritesOneRegister := by
  intro s v
  refine ⟨fun hb => ⟨fun idx => exec_cfgSet_busy hb idx v, fun i hi => ?busy⟩, fun hi => ?idle⟩
  case busy =>
    obtain ⟨r, rfl⟩ : ∃ r, i = cfgRow v r := by
      fin_cases hi
      exacts [⟨.tDown, rfl⟩, ⟨.tSettle, rfl⟩, ⟨.tGap, rfl⟩, ⟨.chunk, rfl⟩, ⟨.tSample, rfl⟩, ⟨.tQuiet, rfl⟩,
        ⟨.tRestart, rfl⟩]
    rw [exec_cfgRow, configure_busy hb]
  case idle =>
    have other {r : CfgReg} (hr : r ≠ .chunk) : ¬ (r = .chunk ∧ v = 0) := fun h => hr h.1
    refine ⟨fun i h => exec_configures_ok (r := .tDown) hi (other (by decide)) h,
      fun i h => exec_configures_ok (r := .tSettle) hi (other (by decide)) h,
      fun i h => exec_configures_ok (r := .tGap) hi (other (by decide)) h,
      fun hv i h => exec_configures_ok (r := .chunk) hi (fun hz => hv hz.2) h,
      fun i h => exec_configures_ok (r := .tSample) hi (other (by decide)) h,
      fun i h => exec_configures_ok (r := .tQuiet) hi (other (by decide)) h,
      fun i h => exec_configures_ok (r := .tRestart) hi (other (by decide)) h, ?_, ?_,
      fun idx h => exec_cfgSet_noSuchRegister hi h v⟩
    · rw [← configure_zeroChunk hi]; exact exec_cfgSet_index .chunk 0 s
    · rw [← configure_zeroChunk hi]; exact exec_cfgRow .chunk 0 s

/-- Settles O53: a byte of a word is the word shifted down and cut. -/
theorem frameFieldRowsReportTheirBytes : Obligations.FrameFieldRowsReportTheirBytes := by
  intro s
  have hbytes (w : Word) : le32 w =
      [w.setWidth 8, (w >>> 8).setWidth 8, (w >>> 16).setWidth 8, (w >>> 24).setWidth 8] := by
    rw [BitVec.setWidth_eq_extractLsb' (by decide)]; rfl
  refine ⟨rfl, ?_, fun hv => ?_, fun hv => ⟨Config.undefinedChecksum s.draws, ?_⟩⟩
  · rw [← hbytes]; rfl
  · rw [← hbytes]; exact if_pos hv
  · exact if_neg (Bool.not_eq_true _ ▸ hv)

/-- Settles O54: each row of the list is one evaluation. -/
theorem codeRowsReportTheirNumbers : Obligations.CodeRowsReportTheirNumbers := by
  intro s i n h
  fin_cases h <;> rfl

/-- Settles O55: the three cases of taking an issued operation. -/
theorem stepRunsTheIssuedOperation : Obligations.StepRunsTheIssuedOperation := by
  intro s
  refine ⟨fun hq => ?_, fun it rest hq => ⟨fun i hd => ?_, fun e hd => ?_⟩⟩
  · rw [step, State.fetch, hq]
  · rw [step, State.fetch, hq]; simp only [hd]
  · rw [step, State.fetch, hq]; simp only [hd]

/-- Settles O59: `State.reset` is one of the resets with parameters. -/
theorem resetValues : Obligations.ResetValues := by
  intro p q r s hs
  obtain ⟨p, q, r, rfl⟩ : ∃ p q r, s = State.resetWith p q r := by
    obtain rfl | rfl := hs
    exacts [⟨_, _, _, rfl⟩, ⟨_, _, _, rfl⟩]
  simp [State.resetWith, Config.crcInit, ErrCode.code]

end Sys2Proof.Machine
end

section
/-! PROOFS. Where a byte sequence is cut (42_reassembler R131 to R133): at the first place
where a severity mark (a token PFX) begins past offset 0 or a newline has just ended. -/

namespace Sys2Proof.Machine

/-! ## A search for the first place where something holds -/

section Search

variable {P : List Byte → Prop} [DecidablePred P] {f : List Byte → Option Nat}

theorem search_eq_some (hnil : f [] = none) (hP : ¬ P [])
    (hcons : ∀ b t, f (b :: t) = if P (b :: t) then some 0 else (f t).map (· + 1)) :
    ∀ {p : List Byte} {i : Nat}, f p = some i ↔ P (p.drop i) ∧ ∀ j < i, ¬ P (p.drop j) := by
  intro p
  induction p with
  | nil => intro i; simp [hnil, hP]
  | cons b t ih =>
    intro i
    rw [hcons]
    split
    next h =>
      constructor
      · rintro ⟨⟩; exact ⟨h, fun j hj => absurd hj (Nat.not_lt_zero j)⟩
      · rintro ⟨-, hmin⟩
        cases i with
        | zero => rfl
        | succ i => exact absurd h (hmin 0 (Nat.succ_pos i))
    next h =>
      cases i with
      | zero => simp [h]
      | succ i =>
        rw [Nat.forall_lt_succ_left]
        simp [ih, h]

theorem search_eq_none (hnil : f [] = none) (hP : ¬ P [])
    (hcons : ∀ b t, f (b :: t) = if P (b :: t) then some 0 else (f t).map (· + 1)) :
    ∀ {p : List Byte}, f p = none ↔ ∀ j, ¬ P (p.drop j) := by
  intro p
  induction p with
  | nil => simp [hnil, hP]
  | cons b t ih =>
    rw [hcons]
    split
    next h => exact ⟨fun he => (Option.some_ne_none 0 he).elim, fun hall => absurd h (hall 0)⟩
    next h =>
      rw [Option.map_eq_none_iff, ih]
      constructor
      · intro hall j
        cases j with
        | zero => exact h
        | succ j => exact hall j
      · exact fun hall j => hall (j + 1)

end Search

/-! ## The two tokens -/

/-- A severity mark, one of the four tokens PFX, stands at the front. -/
def marked (p : List Byte) : Prop := (prefixSeverity p).isSome = true

/-- The middle byte of each of the four marks (30_encoding R67). -/
def markLetters : List Byte := [0x44, 0x49, 0x57, 0x45]

theorem marked_iff {p : List Byte} : marked p ↔ ∃ b ∈ markLetters, ∃ t, p = 0x5B :: b :: 0x5D :: t := by
  constructor
  · intro h
    have htake : ∃ b ∈ markLetters, p.take 3 = [0x5B, b, 0x5D] := by
      unfold marked prefixSeverity at h
      dsimp only at h
      split at h
      next hp => exact ⟨0x44, by decide, hp⟩
      next =>
        split at h
        next hp => exact ⟨0x49, by decide, hp⟩
        next =>
          split at h
          next hp => exact ⟨0x57, by decide, hp⟩
          next =>
            split at h
            next hp => exact ⟨0x45, by decide, hp⟩
            next => cases h
    obtain ⟨b, hb, htake⟩ := htake
    refine ⟨b, hb, p.drop 3, ?_⟩
    rw [← List.take_append_drop 3 p, htake]
    simp
  · rintro ⟨b, hb, t, rfl⟩
    fin_cases hb <;> rfl

theorem not_marked_nil : ¬ marked [] := Bool.false_ne_true

theorem marked.append {p : List Byte} (h : marked p) (x : List Byte) : marked (p ++ x) := by
  obtain ⟨b, hb, t, rfl⟩ := marked_iff.1 h
  exact marked_iff.2 ⟨b, hb, t ++ x, rfl⟩

theorem marked.of_append {p x : List Byte} (h : marked (p ++ x)) (hlen : 3 ≤ p.length) : marked p := by
  obtain ⟨b, hb, t, he⟩ := marked_iff.1 h
  match p, hlen with
  | x0 :: x1 :: x2 :: p, _ =>
    obtain ⟨rfl, rfl, rfl, -⟩ : x0 = 0x5B ∧ x1 = b ∧ x2 = 0x5D ∧ p ++ x = t := by simpa using he
    exact marked_iff.2 ⟨_, hb, p, rfl⟩

theorem marked.length {p : List Byte} (h : marked p) : 3 ≤ p.length := by
  obtain ⟨b, -, t, rfl⟩ := marked_iff.1 h
  simp

/-- No byte of a mark is a newline, and only its first is an opening bracket. -/
theorem marked.bytes {p : List Byte} (h : marked p) :
    (∀ k < 3, p[k]? ≠ some newline) ∧ ∀ k < 3, p[k]? = some 0x5B → k = 0 := by
  obtain ⟨b, hb, t, rfl⟩ := marked_iff.1 h
  have hletter : b ≠ newline ∧ b ≠ 0x5B := by fin_cases hb <;> decide
  constructor
  · intro k hk
    interval_cases k
    · simp [newline]
    · simpa using hletter.1
    · simp [newline]
  · intro k hk
    interval_cases k
    · simp
    · simpa using hletter.2
    · simp

theorem findNl_eq_some {p : List Byte} {i : Nat} :
    findNl p = some i ↔ p[i]? = some newline ∧ ∀ j < i, p[j]? ≠ some newline := by
  have h := search_eq_some (P := fun l => l.head? = some newline) (f := findNl) rfl (by simp)
    (fun b t => by simp [findNl]) (p := p) (i := i)
  simpa only [List.head?_drop] using h

theorem findNl_eq_none {p : List Byte} : findNl p = none ↔ ∀ j : Nat, p[j]? ≠ some newline := by
  have h := search_eq_none (P := fun l => l.head? = some newline) (f := findNl) rfl (by simp)
    (fun b t => by simp [findNl]) (p := p)
  simpa only [List.head?_drop] using h

theorem findPfxAny_eq_some {p : List Byte} {i : Nat} :
    findPfxAny p = some i ↔ marked (p.drop i) ∧ ∀ j < i, ¬ marked (p.drop j) :=
  search_eq_some (P := fun l => (prefixSeverity l).isSome = true) rfl not_marked_nil (fun _ _ => rfl)

theorem findPfxAny_eq_none {p : List Byte} : findPfxAny p = none ↔ ∀ j, ¬ marked (p.drop j) :=
  search_eq_none (P := fun l => (prefixSeverity l).isSome = true) rfl not_marked_nil (fun _ _ => rfl)

theorem findPfx_eq_some {p : List Byte} {i : Nat} :
    findPfx p = some i ↔ 1 ≤ i ∧ marked (p.drop i) ∧ ∀ j < i, 1 ≤ j → ¬ marked (p.drop j) := by
  cases p with
  | nil => simp [findPfx, not_marked_nil]
  | cons b t =>
    cases i with
    | zero => simp [findPfx]
    | succ i =>
      rw [findPfx, Nat.forall_lt_succ_left]
      simpa using findPfxAny_eq_some (p := t) (i := i)

theorem findPfx_eq_none {p : List Byte} : findPfx p = none ↔ ∀ j, 1 ≤ j → ¬ marked (p.drop j) := by
  cases p with
  | nil => simp [findPfx, not_marked_nil]
  | cons b t =>
    rw [findPfx, Option.map_eq_none_iff, findPfxAny_eq_none]
    constructor
    · intro hall j hj
      obtain ⟨k, rfl⟩ := Nat.exists_eq_add_of_le' hj
      exact hall k
    · exact fun hall j => hall (j + 1) (Nat.succ_pos j)

/-! ## Cuts -/

/-- A message may end after the first `c` bytes: a mark follows, or a newline has just ended. -/
def cutAt (p : List Byte) (c : Nat) : Prop := 1 ≤ c ∧ (marked (p.drop c) ∨ p[c - 1]? = some newline)

/-- The first place for a cut. -/
def firstCut (p : List Byte) (c : Nat) : Prop := cutAt p c ∧ ∀ j < c, ¬ cutAt p j

theorem firstCut.unique {p : List Byte} {c d : Nat} (hc : firstCut p c) (hd : firstCut p d) : c = d := by
  rcases Nat.lt_trichotomy c d with h | h | h
  · exact absurd hc.1 (hd.2 c h)
  · exact h
  · exact absurd hd.1 (hc.2 d h)

theorem cutAt.le_length {p : List Byte} {c : Nat} (h : cutAt p c) : c ≤ p.length := by
  obtain ⟨hc, hm | hn⟩ := h
  · have := hm.length
    rw [List.length_drop] at this
    omega
  · obtain ⟨hlt, -⟩ := List.getElem?_eq_some_iff.1 hn
    omega

theorem not_cutAt_of_tokenFree {p : List Byte} (h : tokenFree p) (c : Nat) : ¬ cutAt p c := by
  rintro ⟨hc, hm | hn⟩
  · exact findPfx_eq_none.1 h.2 c hc hm
  · exact findNl_eq_none.1 h.1 _ hn

/-- Of the first mark and the first newline the earlier decides (42_reassembler R133, steps 3 and 4). -/
theorem firstCut_of_cutPoint {p : List Byte} {c : Nat} (h : cutPoint p = some c) : firstCut p c := by
  have beforePfx {i : Nat} (hi : findPfx p = some i) (j : Nat) (hj : j < i) (h1 : 1 ≤ j) : ¬ marked (p.drop j) := by
    obtain ⟨-, -, hmin⟩ := findPfx_eq_some.1 hi
    exact hmin j hj h1
  have beforeNl {n : Nat} (hn : findNl p = some n) (j : Nat) (hj : j < n) : p[j]? ≠ some newline :=
    (findNl_eq_some.1 hn).2 j hj
  have atPfx {i : Nat} (hi : findPfx p = some i) : cutAt p i := by
    obtain ⟨h1, hm, -⟩ := findPfx_eq_some.1 hi
    exact ⟨h1, .inl hm⟩
  have atNl {n : Nat} (hn : findNl p = some n) : cutAt p (n + 1) :=
    ⟨Nat.succ_pos n, .inr (findNl_eq_some.1 hn).1⟩
  unfold cutPoint at h
  split at h
  next i hi hn =>
    cases h
    refine ⟨atPfx hi, fun j hj => ?_⟩
    rintro ⟨h1, hm | hl⟩
    · exact beforePfx hi j hj h1 hm
    · exact findNl_eq_none.1 hn _ hl
  next i n hi hn =>
    split at h <;> cases h
    next hlt =>
      refine ⟨atPfx hi, fun j hj => ?_⟩
      rintro ⟨h1, hm | hl⟩
      · exact beforePfx hi j hj h1 hm
      · exact beforeNl hn _ (by omega) hl
    next hle =>
      have hne : i ≠ n := by
        rintro rfl
        obtain ⟨-, hm, -⟩ := findPfx_eq_some.1 hi
        have h0 := hm.bytes.1 0 (by decide)
        rw [List.getElem?_drop] at h0
        exact h0 (findNl_eq_some.1 hn).1
      refine ⟨atNl hn, fun j hj => ?_⟩
      rintro ⟨h1, hm | hl⟩
      · exact beforePfx hi j (by omega) h1 hm
      · exact beforeNl hn _ (by omega) hl
  next n hi hn =>
    cases h
    refine ⟨atNl hn, fun j hj => ?_⟩
    rintro ⟨h1, hm | hl⟩
    · exact findPfx_eq_none.1 hi j h1 hm
    · exact beforeNl hn _ (by omega) hl
  next => cases h

theorem cutPoint_eq_some {p : List Byte} {c : Nat} : cutPoint p = some c ↔ firstCut p c := by
  refine ⟨firstCut_of_cutPoint, fun h => ?_⟩
  cases hp : cutPoint p with
  | none => exact absurd h.1 (not_cutAt_of_tokenFree (cutPoint_eq_none.1 hp) c)
  | some d => rw [(firstCut_of_cutPoint hp).unique h]

/-! ## Cuts of a sequence that goes on -/

theorem cutAt.append {p : List Byte} {c : Nat} (h : cutAt p c) (x : List Byte) : cutAt (p ++ x) c := by
  have hle := h.le_length
  obtain ⟨hc, hm | hn⟩ := h
  · exact ⟨hc, .inl (by rw [List.drop_append_of_le_length hle]; exact hm.append x)⟩
  · exact ⟨hc, .inr (by rw [List.getElem?_append_left (by omega)]; exact hn)⟩

/-- A cut of the longer sequence that the shorter does not have is before a token that the shorter only begins. -/
theorem cutAt.of_append {p x : List Byte} {c : Nat} (h : cutAt (p ++ x) c) (hc : c ≤ p.length) (hn : ¬ cutAt p c) :
    p.length < c + 3 ∧ marked (p.drop c ++ x) := by
  obtain ⟨h1, hm | hl⟩ := h
  · rw [List.drop_append_of_le_length hc] at hm
    refine ⟨?_, hm⟩
    by_contra hlen
    exact hn ⟨h1, .inl (hm.of_append (by rw [List.length_drop]; omega))⟩
  · rw [List.getElem?_append_left (by omega)] at hl
    exact absurd ⟨h1, .inr hl⟩ hn

/-- The first cut does not move when bytes follow: a token that only then is complete begins after it. -/
theorem cutPoint_append {p : List Byte} {c : Nat} (h : cutPoint p = some c) (x : List Byte) :
    cutPoint (p ++ x) = some c := by
  obtain ⟨hc, hmin⟩ := cutPoint_eq_some.1 h
  have hle := hc.le_length
  refine cutPoint_eq_some.2 ⟨hc.append x, fun j hj hcut => ?_⟩
  obtain ⟨hlen, hm⟩ := hcut.of_append (by omega) (hmin j hj)
  obtain ⟨-, hmc | hn⟩ := hc
  · have := hmc.length
    rw [List.length_drop] at this
    omega
  · apply hm.bytes.1 (c - 1 - j) (by omega)
    rw [List.getElem?_append_left (by rw [List.length_drop]; omega), List.getElem?_drop,
      show j + (c - 1 - j) = c - 1 by omega, hn]

/-- The splitting, one turn at a time. -/
theorem cut_induction {motive : List Byte → Prop} (rest : ∀ p, tokenFree p → motive p)
    (cut : ∀ p c, cutPoint p = some c → motive (p.drop c) → motive p) (p : List Byte) : motive p := by
  induction hn : p.length using Nat.strong_induction_on generalizing p with
  | _ n ih =>
    cases hp : cutPoint p with
    | none => exact rest p (cutPoint_eq_none.1 hp)
    | some c =>
      have hb := cutPoint_bounds hp
      exact cut p c hp (ih (p.drop c).length (by rw [List.length_drop]; omega) _ rfl)

/-- Splitting a sequence and then what remains of it with more bytes is splitting all of them (42_reassembler R143). -/
theorem splitAll_append (p x : List Byte) :
    splitAll (p ++ x) =
      ((splitAll p).1 ++ (splitAll ((splitAll p).2 ++ x)).1, (splitAll ((splitAll p).2 ++ x)).2) := by
  induction p using cut_induction with
  | rest p h => rw [splitAll_tokenFree h, List.nil_append]
  | cut p c h ih =>
    have hb := cutPoint_bounds h
    rw [splitAll_cut (cutPoint_append h x), splitAll_cut h, List.take_append_of_le_length hb.2,
      List.drop_append_of_le_length hb.2, ih, List.cons_append]

/-! ## What is cut off -/

/-- A text as a message may have it: not empty, no mark past offset 0, a newline only as its last byte. -/
structure WholeText (m : List Byte) : Prop where
  nonempty : m ≠ []
  noInnerMark : findPfx m = none
  newlineLast : ∀ i, findNl m = some i → i + 1 = m.length

theorem WholeText.of_tokenFree {p : List Byte} (h : tokenFree p) (hne : p ≠ []) : WholeText p :=
  ⟨hne, h.2, fun i hi => by rw [h.1] at hi; cases hi⟩

/-- Before the first cut stands no token but at its ends. -/
theorem WholeText.take {p : List Byte} {c : Nat} (h : cutPoint p = some c) : WholeText (p.take c) := by
  obtain ⟨hc, hmin⟩ := cutPoint_eq_some.1 h
  have hle := hc.le_length
  have hlen : (p.take c).length = c := List.length_take_of_le hle
  refine ⟨List.ne_nil_of_length_pos (by rw [hlen]; exact hc.1), findPfx_eq_none.2 fun j hj hm => ?_, fun i hi => ?_⟩
  · have hlt : j < c := by
      have := hm.length
      rw [List.length_drop, hlen] at this
      omega
    have hm' := hm.append (p.drop c)
    rw [← List.drop_append_of_le_length (by omega), List.take_append_drop] at hm'
    exact hmin j hlt ⟨hj, .inl hm'⟩
  · have hlt := findNl_lt hi
    obtain ⟨hi, -⟩ := findNl_eq_some.1 hi
    rw [hlen] at hlt ⊢
    rw [List.getElem?_take_of_lt hlt] at hi
    by_contra hne
    exact hmin (i + 1) (by omega) ⟨Nat.succ_pos i, .inr hi⟩

theorem splitAll_wholeText (p : List Byte) : ∀ m ∈ (splitAll p).1, WholeText m := by
  induction p using cut_induction with
  | rest p h => rw [splitAll_tokenFree h]; exact fun m hm => absurd hm List.not_mem_nil
  | cut p c h ih =>
    rw [splitAll_cut h]
    intro m hm
    obtain rfl | hm := List.mem_cons.1 hm
    · exact WholeText.take h
    · exact ih m hm

/-- Stamping whole texts makes well-formed messages. -/
theorem stamp_ok {ms : List (List Byte)} (h : ∀ m ∈ ms, WholeText m) {n : Nat} {m : Message} (hm : m ∈ stamp n ms) :
    m.ok := by
  have htext : m.text ∈ ms := by
    rw [← stamp_text ms n]; exact List.mem_map_of_mem hm
  obtain ⟨hne, hpfx, hnl⟩ := h _ htext
  exact ⟨hne, hpfx, hnl, stamp_severity ms n hm⟩

/-! ## The two tokens after a fragment that holds none -/

theorem splitAll_newline {p : List Byte} (h : tokenFree p) : splitAll (p ++ [newline]) = ([p ++ [newline]], []) := by
  have hcut : cutPoint (p ++ [newline]) = some (p.length + 1) := by
    refine cutPoint_eq_some.2 ⟨⟨Nat.succ_pos _, .inr (by simp)⟩, fun j hj hc => ?_⟩
    obtain ⟨hlen, hm⟩ := hc.of_append (by omega) (not_cutAt_of_tokenFree h j)
    apply hm.bytes.1 (p.length - j) (by omega)
    rw [List.getElem?_append_right (by rw [List.length_drop])]
    simp
  have hlen : p.length + 1 = (p ++ [newline]).length := (List.length_append (bs := [newline])).symm
  rw [splitAll_cut hcut, hlen, List.take_length, List.drop_length]
  rfl

theorem splitAll_mark {p x : List Byte} (h : tokenFree p) (hp : p ≠ [])
    (hx : x ∈ [prefixD, prefixI, prefixW, prefixE]) :
    splitAll (p ++ x) = ([p], x) := by
  have hmark : marked x ∧ tokenFree x ∧ x[0]? = some 0x5B := by
    unfold tokenFree marked
    fin_cases hx <;> decide
  obtain ⟨hm, hfree, hhead⟩ := hmark
  have hcut : cutPoint (p ++ x) = some p.length := by
    have hend : cutAt (p ++ x) p.length :=
      ⟨List.length_pos_of_ne_nil hp, .inl (by rw [List.drop_left]; exact hm)⟩
    refine cutPoint_eq_some.2 ⟨hend, fun j hj hc => ?_⟩
    obtain ⟨hlen, hmj⟩ := hc.of_append (by omega) (not_cutAt_of_tokenFree h j)
    have hzero := hmj.bytes.2 (p.length - j) (by omega)
      (by rw [List.getElem?_append_right (by rw [List.length_drop]), List.length_drop, Nat.sub_self, hhead])
    omega
  rw [splitAll_cut hcut, List.take_left, List.drop_left, splitAll_tokenFree hfree]

end Sys2Proof.Machine
end

section
/-! PROOFS. The Frame Reassembler's operations (42_reassembler R130 to R145). -/

namespace Sys2Proof.Machine

variable {s t : State}

/-! ## Capacity, 20_memory R42 -/

theorem fits_mono {cap : Option Nat} {m n : Nat} (h : fits cap n = true) (hmn : m ≤ n) : fits cap m = true := by
  cases cap with
  | none => rfl
  | some c => exact decide_eq_true (hmn.trans (of_decide_eq_true h))

theorem splitAll_rest_length (p : List Byte) : (splitAll p).2.length ≤ p.length := by
  have h := congrArg List.length (splitAll_flatten p)
  rw [List.length_append] at h
  omega

/-! ## A pass, an empty chunk and a flush, each with all it leaves unchanged -/

/-- The state after a pass over `chunk`. -/
def State.passed (s : State) (chunk : List Byte) : State :=
  { s with
    msgs := s.msgs ++ stamp s.draws (splitAll (s.rxPending ++ chunk)).1
    draws := s.draws + (splitAll (s.rxPending ++ chunk)).1.length
    rxPending := (splitAll (s.rxPending ++ chunk)).2
    rxTimer := if (splitAll (s.rxPending ++ chunk)).2 = [] then .idle else .armed }

theorem State.splitPass_chunk (s : State) (chunk : List Byte) :
    ({ s with rxPending := s.rxPending ++ chunk } : State).splitPass = s.passed chunk := rfl

theorem State.rearm_nil (s : State) (h : s.rxPending = []) : s.rearm = s := if_pos h

theorem State.rearm_pending (s : State) (h : s.rxPending ≠ []) : s.rearm = { s with rxTimer := .armed } := if_neg h

theorem State.rearm_eq (s : State) : s.rearm = { s with rxTimer := s.rearm.rxTimer } := by
  unfold State.rearm
  split <;> rfl

theorem State.flush_nil (h : s.rxPending = []) : s.flush = s := if_pos h

theorem State.flush_pending (h : s.rxPending ≠ []) :
    s.flush = { s with
      msgs := s.msgs ++ [⟨classify s.rxPending, s.rxPending, Config.timestamp s.draws⟩]
      draws := s.draws + 1
      rxPending := [] } := if_neg h

/-! ## What an accepted chunk does -/

/-- The state after an inbound notification that is not refused. -/
def State.received (s : State) (chunk : List Byte) : State := if chunk = [] then s.rearm else s.passed chunk

theorem State.received_nil (s : State) : s.received [] = s.rearm := if_pos rfl

theorem State.received_chunk (s : State) {chunk : List Byte} (h : chunk ≠ []) : s.received chunk = s.passed chunk :=
  if_neg h

/-- An accepted chunk writes the receive path's registers and nothing else (60_exceptions R216). -/
theorem State.received_eq (s : State) (chunk : List Byte) :
    s.received chunk = { s with
      msgs := (s.received chunk).msgs
      draws := (s.received chunk).draws
      rxPending := (s.received chunk).rxPending
      rxTimer := (s.received chunk).rxTimer } := by
  unfold State.received
  split
  · exact s.rearm_eq.trans (by simp)
  · rfl

theorem State.reply_received (s : State) (r : Report) (chunk : List Byte) :
    (s.reply r).received chunk = (s.received chunk).reply r := by
  unfold State.received State.rearm
  split
  · rw [State.reply_rxPending]; split <;> rfl
  · rfl

/-- No byte is lost and none invented (42_reassembler R142 item 5). -/
theorem State.received_texts (s : State) (chunk : List Byte) :
    (texts (s.received chunk).msgs).flatten ++ (s.received chunk).rxPending =
      (texts s.msgs).flatten ++ s.rxPending ++ chunk := by
  by_cases hc : chunk = []
  · rw [hc, State.received_nil, State.rearm_eq, List.append_nil]
  · have hsplit := splitAll_flatten (s.rxPending ++ chunk)
    rw [s.received_chunk hc, State.passed, texts, List.map_append, stamp_text, List.flatten_append, List.append_assoc,
      hsplit, ← List.append_assoc]
    rfl

theorem State.received_msgs_grow (s : State) (chunk : List Byte) : s.msgs <+: (s.received chunk).msgs := by
  by_cases hc : chunk = []
  · rw [hc, State.received_nil, State.rearm_eq]
  · rw [s.received_chunk hc]; exact ⟨_, rfl⟩

theorem State.received_length_le (s : State) (chunk : List Byte) :
    (s.received chunk).rxPending.length ≤ s.rxPending.length + chunk.length := by
  by_cases hc : chunk = []
  · rw [hc, State.received_nil, State.rearm_eq]; exact Nat.le_add_right _ _
  · rw [s.received_chunk hc, ← List.length_append]; exact splitAll_rest_length _

/-! ## Two chunks one after the other, 42_reassembler R143 -/

theorem State.rearm_rearm (s : State) : s.rearm.rearm = s.rearm := by
  by_cases hp : s.rxPending = []
  · rw [s.rearm_nil hp, s.rearm_nil hp]
  · rw [s.rearm_pending hp]; exact State.rearm_pending _ hp

theorem State.rearm_passed (s : State) (b : List Byte) : s.rearm.passed b = s.passed b := by
  rw [State.rearm_eq]; rfl

/-- A pass has armed the timer already if a fragment remains. -/
theorem State.passed_rearm (s : State) (a : List Byte) : (s.passed a).rearm = s.passed a := by
  unfold State.rearm
  split
  next => rfl
  next h =>
    have htimer : (s.passed a).rxTimer = .armed := if_neg h
    rw [← htimer]

theorem State.passed_passed (s : State) (a b : List Byte) : (s.passed a).passed b = s.passed (a ++ b) := by
  have h := splitAll_append (s.rxPending ++ a) b
  rw [List.append_assoc] at h
  simp only [State.passed, h, stamp_append, List.length_append, List.append_assoc, Nat.add_assoc]
  rfl

theorem State.received_received (s : State) (a b : List Byte) :
    (s.received a).received b = s.received (a ++ b) := by
  by_cases ha : a = [] <;> by_cases hb : b = []
  · rw [ha, hb, List.append_nil, State.received_nil, State.received_nil, State.rearm_rearm]
  · rw [ha, List.nil_append, State.received_nil, State.received_chunk _ hb, State.received_chunk _ hb,
      State.rearm_passed]
  · rw [hb, List.append_nil, State.received_nil, s.received_chunk ha, State.passed_rearm]
  · have hab : a ++ b ≠ [] := fun h => ha (List.append_eq_nil_iff.1 h).1
    rw [State.received_chunk _ ha, State.received_chunk _ hb, State.received_chunk _ hab, State.passed_passed]

/-! ## `RX.BYTES` and `RX.QTO`, branch by branch -/

theorem exec_rxBytes (chunk : List Byte) (s : State) : exec (.rxBytes chunk) s = receive chunk s := rfl

theorem receive_eq_next {chunk : List Byte} :
    receive chunk s = .next t ↔
      s.linkOpen = true ∧ fits s.params.pendMax (s.rxPending.length + chunk.length) = true ∧
        t = (s.received chunk).reply .done := by
  rw [receive_next]
  by_cases hc : chunk = []
  · simp [hc, State.received_nil]
  · simp [hc, s.received_chunk hc, State.splitPass_chunk]

theorem receive_closed (hc : s.linkOpen = false) (chunk : List Byte) : receive chunk s = .refused .linkClosed :=
  if_pos hc

theorem receive_full {chunk : List Byte} (ho : s.linkOpen = true)
    (hf : fits s.params.pendMax (s.rxPending.length + chunk.length) = false) :
    receive chunk s = .refused .pendingFull := by
  rw [receive, if_neg (Bool.ne_false_iff.2 ho), if_pos hf]

theorem exec_rxQto_noRequest (h : s.rxQtoReq = false) : exec .rxQto s = .refused .noTimeoutRequest := if_pos h

theorem exec_rxQto_request (h : s.rxQtoReq = true) :
    exec .rxQto s = .next (({ s with rxQtoReq := false } : State).flush.reply .done) :=
  if_neg (Bool.ne_false_iff.2 h)

/-- The five token rows, each with its bytes. -/
theorem exec_token {i : Instr} {p : List Byte}
    (h : (i, p) ∈ [(Instr.tokNl, [newline]), (.tokPfxD, prefixD), (.tokPfxI, prefixI), (.tokPfxW, prefixW),
      (.tokPfxE, prefixE)]) (s : State) : exec i s = receive p s := by
  fin_cases h <;> rfl

/-! ## The obligations -/

/-- Settles O18: what an accepted chunk grows and what it leaves. -/
theorem rxBytesLosesNoByte : Obligations.RxBytesLosesNoByte := by
  intro s chunk ho hf
  refine ⟨_, receive_eq_next.2 ⟨ho, hf, rfl⟩, s.received_msgs_grow chunk, s.received_texts chunk, ?_⟩
  rw [State.received_eq]; rfl

/-- Settles O19: what remains is where the splitting stopped, what was cut off lies before first cuts. -/
theorem rxBytesLeavesNoToken : Obligations.RxBytesLeavesNoToken := by
  intro s t chunk hne h
  obtain ⟨-, -, rfl⟩ := receive_eq_next.1 h
  rw [s.received_chunk hne]
  refine ⟨splitAll_rest _, fun hp => if_neg hp, fun hp => if_pos hp, fun m hm => ?_⟩
  have hnew : ((s.passed chunk).reply .done).msgs.drop s.msgs.length =
      stamp s.draws (splitAll (s.rxPending ++ chunk)).1 := List.drop_left
  rw [hnew] at hm
  exact stamp_ok (splitAll_wholeText _) hm

/-- Settles O20: the branches of a notification; a token row is one with its bytes. -/
theorem rxBytesEmptyChunkAndRefusals : Obligations.RxBytesEmptyChunkAndRefusals := by
  intro s
  refine ⟨fun ho hf => ?_, fun hc chunk => receive_closed hc chunk, fun ho chunk n hn hlt => ?_,
    fun i p hmem => exec_token hmem s⟩
  · rw [exec_rxBytes, receive_eq_next (chunk := []).2 ⟨ho, hf, rfl⟩, State.received_nil, State.rearm_eq,
      State.rearm_rxTimer]
    rfl
  · exact receive_full ho (by rw [hn]; exact decide_eq_false (Nat.not_le.2 hlt))

/-- Settles O21: two chunks are one, and a list of chunks is its first and the rest. -/
theorem fragmentationIndependence : Obligations.FragmentationIndependence := by
  intro s chunks hne
  induction chunks generalizing s with
  | nil => exact absurd rfl hne
  | cons a rest ih =>
    intro ho hf
    rw [List.flatten_cons] at hf ⊢
    rw [List.length_append, ← Nat.add_assoc] at hf
    have ha : exec (.rxBytes a) s = .next ((s.received a).reply .done) :=
      receive_eq_next.2 ⟨ho, fits_mono hf (Nat.le_add_right _ _), rfl⟩
    rw [List.map_cons, execAll_cons_next ha]
    by_cases hrest : rest = []
    · rw [hrest, List.flatten_nil, List.append_nil, ha]; rfl
    · have ho' : ((s.received a).reply .done).linkOpen = true := by rw [State.received_eq]; exact ho
      have hf' : fits ((s.received a).reply .done).params.pendMax
          (((s.received a).reply .done).rxPending.length + rest.flatten.length) = true := by
        have hp : ((s.received a).reply .done).params = s.params := by rw [State.received_eq]; rfl
        rw [hp]
        exact fits_mono hf (Nat.add_le_add_right (s.received_length_le a) _)
      have hall : fits s.params.pendMax (s.rxPending.length + (a ++ rest.flatten).length) = true := by
        rw [List.length_append, ← Nat.add_assoc]; exact hf
      rw [ih _ hrest ho' hf', exec_rxBytes, exec_rxBytes, receive_eq_next.2 ⟨ho', hf', rfl⟩,
        receive_eq_next.2 ⟨ho, hall, rfl⟩, State.reply_received, State.received_received]
      rfl

/-- Settles O23: the request decides, then whether anything is pending. -/
theorem rxQtoFlushesOnce : Obligations.RxQtoFlushesOnce := by
  intro s
  refine ⟨exec_rxQto_noRequest, fun hq hp => ?_, fun hq hp => ⟨Config.timestamp s.draws, ?_⟩⟩
  · rw [exec_rxQto_request hq, State.flush_nil (s := { s with rxQtoReq := false }) hp]; rfl
  · rw [exec_rxQto_request hq, State.flush_pending (s := { s with rxQtoReq := false }) hp]; rfl

/-- Settles O24: either the request stands already, or the timer is armed and its expiry makes the request. -/
theorem pendingFragmentSurfaces : Obligations.PendingFragmentSurfaces := by
  intro s hinv hp
  have surfaces (u : State) (hq : u.rxQtoReq = true) (hu : u.rxPending ≠ []) :
      ∃ t ts, exec .rxQto u = .next t ∧ t.rxPending = [] ∧
        t.msgs = u.msgs ++ [⟨classify u.rxPending, u.rxPending, ts⟩] := by
    obtain ⟨-, -, hflush⟩ := rxQtoFlushesOnce u
    obtain ⟨ts, h⟩ := hflush hq hu
    exact ⟨_, ts, h, rfl, rfl⟩
  cases hq : s.rxQtoReq with
  | true =>
    obtain ⟨t, ts, h, hpend, hmsgs⟩ := surfaces s hq hp
    exact ⟨[.rxQto], t, ts, .inl rfl, execAll_singleton_next h, hpend, hmsgs⟩
  | false =>
    have harmed := exec_rxTexp_armed (hinv.armed hp hq)
    obtain ⟨t, ts, h, hpend, hmsgs⟩ :=
      surfaces ({ s with rxTimer := .idle, rxQtoReq := true }.reply .done) rfl hp
    have hboth := (execAll_cons_next harmed).trans (execAll_singleton_next h)
    exact ⟨[.rxTexp, .rxQto], t, ts, .inr rfl, hboth, hpend, hmsgs⟩

/-- Settles O25: the cut is after the newline, and nothing remains. -/
theorem newlineTokenEndsTheMessage : Obligations.NewlineTokenEndsTheMessage := by
  intro s ho hfree hf
  refine ⟨Config.timestamp s.draws, ?_⟩
  have h : exec .tokNl s = .next ((s.received [newline]).reply .done) := receive_eq_next.2 ⟨ho, hf, rfl⟩
  rw [h, s.received_chunk (List.cons_ne_nil _ _), State.passed, splitAll_newline hfree]
  rfl

/-- Settles O26: the token is the first of a new fragment, or interrupts the one that was pending. -/
theorem prefixTokensInterrupt : Obligations.PrefixTokensInterrupt := by
  intro s i p hmem ho hfree hf
  have htoken : p ∈ [prefixD, prefixI, prefixW, prefixE] ∧ p.length = 3 ∧ tokenFree p := by
    unfold tokenFree
    fin_cases hmem <;> decide
  obtain ⟨hp, hlen, hpfree⟩ := htoken
  have hne : p ≠ [] := List.ne_nil_of_length_pos (by rw [hlen]; decide)
  have h : exec i s = .next ((s.passed p).reply .done) := by
    rw [exec_token (List.mem_cons_of_mem _ hmem), ← s.received_chunk hne]
    exact receive_eq_next.2 ⟨ho, by rw [hlen]; exact hf, rfl⟩
  refine ⟨fun hs => ?_, fun hs => ⟨Config.timestamp s.draws, ?_⟩⟩
  · rw [h, State.passed, hs, List.nil_append, splitAll_tokenFree hpfree]
    simp [stamp, hne, State.reply]
  · rw [h, State.passed, splitAll_mark hfree hs hp]
    simp [stamp, hne, State.reply]

/-- Settles O27: the four cases of the classification, and its default. -/
theorem severityIsThatOfThePrefix : Obligations.SeverityIsThatOfThePrefix := by
  intro m
  have four : classify m = ((if m.take 3 = prefixD then some .debug else if m.take 3 = prefixI then some .info
      else if m.take 3 = prefixW then some .warn else if m.take 3 = prefixE then some .error else none) :
      Option Severity).getD .default := rfl
  refine ⟨fun h => by rw [four, h]; rfl, fun h => by rw [four, h]; rfl, fun h => by rw [four, h]; rfl,
    fun h => by rw [four, h]; rfl, fun h => ?_⟩
  simp only [List.mem_cons, List.not_mem_nil, or_false, not_or] at h
  obtain ⟨hd, hi, hw, he⟩ : m.take 3 ≠ prefixD ∧ m.take 3 ≠ prefixI ∧ m.take 3 ≠ prefixW ∧ m.take 3 ≠ prefixE := h
  rw [four, if_neg hd, if_neg hi, if_neg hw, if_neg he]; rfl

/-- Settles O29: nothing is pending, no message is out. -/
theorem resetMeetsReceiveInvariant : Obligations.ResetMeetsReceiveInvariant := by
  have h (p : Params) (q r : Word) : RxInv (State.resetWith p q r) :=
    { pending := ⟨rfl, rfl⟩
      messages := fun _ hm => absurd hm List.not_mem_nil
      armed := fun hp => absurd rfl hp
      closed := fun _ => ⟨rfl, rfl, rfl⟩
      capacity := by
        show fits p.pendMax 0 = true
        cases p.pendMax <;> rfl }
  exact ⟨h _ _ _, h⟩

end Sys2Proof.Machine
end

section
/-! PROOFS. What an operation can do, said once for all of them: every next state is one of the effects below, and a
fault has one of two causes. The invariants and frames of the whole machine are read off this list. -/

namespace Sys2Proof.Machine

/-- An operation of neither path: the engine, the formatter, the link, the configuration, a row that only reports. -/
def hostSide (i : Instr) : Prop := ¬ receiveSide i ∧ ¬ transmitSide i

/-- What a question to DEV leaves that did not succeed: nothing on a closed link, on an open one the answer taken and
perhaps a front of the write on the wire (43_transmit R170, R182). -/
inductive Unsent (s : State) : State → Prop
  | closed (hc : s.linkOpen = false) : Unsent s s
  | failed (ho : s.linkOpen = true) (events : List WireEvent) (hw : ∀ bs, .write bs ∈ events → bs ≠ []) :
      Unsent s (s.answeredWith events)

/-- What `TX.STEP` can do: a stage that succeeds, named for it, or one that fails (43_transmit R161 to R176). -/
inductive StageMove (s : State) : State → Prop
  | rstLow (hs : s.txStage = .rstLow) (ho : s.linkOpen = true) :
      StageMove s { s.answeredWith [.line .a .active, .wait .tDown s.cfgTDown] with
        lineA := .active, txStage := .rstSettle, report := .done }
  | rstSettle (hs : s.txStage = .rstSettle) (ho : s.linkOpen = true) :
      StageMove s { s.answeredWith [.line .a .inactive, .wait .tSettle s.cfgTSettle] with
        lineA := .inactive, txStage := .magic, report := .done }
  | magic (hs : s.txStage = .magic) :
      StageMove s { s.answeredWith [.write (be32 Config.magic)] with txStage := .gapM, report := .done }
  | gapM (hs : s.txStage = .gapM) :
      StageMove s { s with wire := s.wire ++ [.wait .tGap s.cfgTGap], txStage := .size, report := .done }
  | size (hs : s.txStage = .size) :
      StageMove s { s.answeredWith [.write (le32 s.frmSize)] with txStage := .gapS, report := .done }
  | gapS (hs : s.txStage = .gapS) :
      StageMove s { s with wire := s.wire ++ [.wait .tGap s.cfgTGap], txStage := .payload, report := .done }
  | payload (hs : s.txStage = .payload) (bytes : List Byte)
      (hread : s.payRead s.txSent.toNat s.chunkLength = .ok bytes) :
      StageMove s (((s.answeredWith [.write bytes]).chunkSent s.chunkLength).reply .done)
  | cksum (hs : s.txStage = .cksum) :
      StageMove s { s.answeredWith [.write (le32 s.frmCksum)] with
        txStatus := .ok, txStage := .idle, frmValid := false, report := .done }
  | rbPulse (hs : s.txStage = .rbPulse) (ho : s.linkOpen = true) :
      StageMove s { s.answeredWith [.line .b .inactive] with lineB := .inactive, txStage := .idle, report := .done }
  | uploadFails {u : State} (hu : s.txStage.uploading = true) (h : Unsent s u) : StageMove s (failedAt s.txStage u)
  | pulseFails {u : State} (hs : s.txStage = .rbPulse) (h : Unsent s u) :
      StageMove s { u with
        txErr := .transportError, txStage := .idle, report := .raised (.transportError .rbPulse) }

/-- What an operation that answers a next state can do. -/
inductive Effect (s : State) : Instr → State → Prop
  | reported (i : Instr) (r : Report) : Effect s i (s.reply r)
  | drew {i : Instr} (hi : hostSide i) (r : Report) : Effect s i ({ s with draws := s.draws + 1 }.reply r)
  | summed {i : Instr} (hi : hostSide i) (crc : Word) (r : Report) : Effect s i ({ s with crc := crc }.reply r)
  | buildFailed {i : Instr} (hi : hostSide i) (hs : s.txStage = .idle) (code : ErrCode) (e : SblError) :
      Effect s i ({ s with frmValid := false, txErr := code }.reply (.raised e))
  | loaded {i : Instr} (hi : hostSide i) (hs : s.txStage = .idle) (bytes : List Byte)
      (hlen : bytes.length ≤ s.params.payMax) : Effect s i ((s.loadPayload bytes).reply .done)
  | built {i : Instr} (hi : hostSide i) (hs : s.txStage = .idle) (hne : s.frmSize ≠ 0) (payload : List Byte)
      (hread : s.payRead 0 s.frmSize.toNat = .ok payload) : Effect s i ((s.sealFrame payload).reply .done)
  | received {i : Instr} (hi : receiveSide i) (chunk : List Byte) (ho : s.linkOpen = true)
      (hf : fits s.params.pendMax (s.rxPending.length + chunk.length) = true) :
      Effect s i ((s.received chunk).reply .done)
  | expired (ha : s.rxTimer = .armed) :
      Effect s .rxTexp ({ s with rxTimer := .idle, rxQtoReq := true }.reply .done)
  | flushed (hq : s.rxQtoReq = true) :
      Effect s .rxQto (({ s with rxQtoReq := false } : State).flush.reply .done)
  | uploadBegun (r : Bool) (hs : s.txStage = .idle) (hv : s.frmValid = true) :
      Effect s (.txUpload r) ((s.beginUpload r).reply .done)
  | restarted (hs : s.txStage = .idle) (ho : s.linkOpen = true) :
      Effect s .txRestart { s.answeredWith [.line .b .active, .wait .tRestart s.cfgTRestart] with
        lineB := .active, txErr := .none, txStage := .rbPulse, report := .done }
  | restartFailed {u : State} (hs : s.txStage = .idle) (h : Unsent s u) :
      Effect s .txRestart { u with txErr := .transportError, report := .raised (.transportError .rbPulse) }
  | stepped {i : Instr} {t : State} (hi : transmitSide i) (h : StageMove s t) : Effect s i t
  | linkAsked (hc : s.linkOpen = false) (o : Bool) (r : Report) :
      Effect s .linkOpen ({ s.answered with linkOpen := o }.reply r)
  | linkClosed (r : Report) : Effect s .linkClose (s.answered.hangUp.reply r)
  | disconnected : Effect s .linkDisc (s.hangUp.reply .done)
  | uploadCut (hu : s.txStage.uploading = true) : Effect s .linkDisc (failedAt s.txStage s.hangUp)
  | pulseCut (hs : s.txStage = .rbPulse) :
      Effect s .linkDisc { s.hangUp with
        txErr := .transportError, txStage := .idle, report := .raised (.transportError .rbPulse) }
  | configured {i : Instr} (hi : hostSide i) (hs : s.txStage = .idle) (r : CfgReg) (v : Word)
      (hv : ¬ (r = .chunk ∧ v = 0)) : Effect s i ((s.setCfg v r).reply .done)

/-- The two reads of `PAY` that can fault: of the whole payload, and of the next chunk. -/
def Unreadable (s : State) : Prop :=
  (∃ f, s.payRead 0 s.frmSize.toNat = .error f) ∨
    (s.txStage = .payload ∧ ∃ f, s.payRead s.txSent.toNat s.chunkLength = .error f)

/-- What an operation can answer. -/
def Allowed (s : State) (i : Instr) : Result → Prop
  | .next t => Effect s i t
  | .fault _ => Unreadable s
  | .refused _ => True

variable {s t u : State} {i : Instr}

/-! ## The stages -/

theorem Unsent.of_chanWrite {bytes : List Byte} (h : s.chanWrite bytes = (false, u)) : Unsent s u := by
  obtain ⟨hc, rfl⟩ | ⟨ho, k, -, rfl⟩ := State.chanWrite_false.1 h
  · exact .closed hc
  · rw [State.pushFront]
    split
    next => rw [← State.answeredWith_nil]; exact .failed ho [] (by simp)
    next hne => exact .failed ho [.write (bytes.take k)] (by simpa using hne)

theorem Unsent.of_lineSet {x : Line} {level : Level} (h : s.lineSet x level = (false, u)) : Unsent s u := by
  obtain ⟨hc, rfl⟩ | ⟨ho, -, rfl⟩ := State.lineSet_false.1 h
  · exact .closed hc
  · rw [← State.answeredWith_nil]; exact .failed ho [] (by simp)

/-- `fail(S)` of the stage the sequencer is in. -/
theorem StageMove.of_failAt (hs : s.txStage ≠ .idle) (h : Unsent s u) :
    ∃ v, failAt s.txStage u = .next v ∧ StageMove s v := by
  by_cases hp : s.txStage = .rbPulse
  · exact ⟨_, by rw [hp, failAt_rbPulse], .pulseFails hp h⟩
  · have hu := Stage.uploading_of_ne hs hp
    exact ⟨_, failAt_eq_failedAt hu, .uploadFails hu h⟩

theorem StageMove.of_withWrite {bytes : List Byte} {rest : State → Result} (hs : s.txStage ≠ .idle)
    (hrest : rest (s.answeredWith [.write bytes]) = .next t) (ht : StageMove s t) :
    ∃ v, withWrite s.txStage bytes rest s = .next v ∧ StageMove s v := by
  rcases hq : s.chanWrite bytes with ⟨_ | _, u⟩
  · rw [withWrite_false hq]; exact StageMove.of_failAt hs (.of_chanWrite hq)
  · obtain ⟨-, -, rfl⟩ := State.chanWrite_true.1 hq
    exact ⟨t, by rw [withWrite_true hq]; exact hrest, ht⟩

theorem StageMove.of_withLine {x : Line} {level : Level} {rest : State → Result} (hs : s.txStage ≠ .idle)
    (hrest : rest ((s.answeredWith [.line x level]).setLine x level) = .next t)
    (ht : s.linkOpen = true → StageMove s t) :
    ∃ v, withLine s.txStage x level rest s = .next v ∧ StageMove s v := by
  rcases hq : s.lineSet x level with ⟨_ | _, u⟩
  · rw [withLine_false hq]; exact StageMove.of_failAt hs (.of_lineSet hq)
  · obtain ⟨ho, ha, -⟩ := State.lineSet_true.1 hq
    exact ⟨t, (withLine_true (State.lineSet_ok ho ha x level)).trans hrest, ht ho⟩

/-- Outside `IDLE` `TX.STEP` answers a next state, or reads a chunk that `PAY` does not hold. -/
theorem allowed_txStep_busy (hs : s.txStage ≠ .idle) (hi : transmitSide i) : Allowed s i (exec .txStep s) := by
  have moves {r : Result} (h : ∃ v, r = .next v ∧ StageMove s v) : Allowed s i r := by
    obtain ⟨v, rfl, hv⟩ := h
    exact .stepped hi hv
  rw [exec_txStep, execTxStep]
  split
  next hidle => exact absurd hidle hs
  next h =>
    rw [stageRstLow, ← h]
    exact moves (StageMove.of_withLine hs
      (congrArg (fun u => finish (u.toStage .rstSettle)) (s.doWait_setLine_answeredWith .a .active .tDown)) (.rstLow h))
  next h =>
    rw [stageRstSettle, ← h]
    exact moves (StageMove.of_withLine hs
      (congrArg (fun u => finish (u.toStage .magic)) (s.doWait_setLine_answeredWith .a .inactive .tSettle))
      (.rstSettle h))
  next h => rw [stageMagic, ← h]; exact moves (StageMove.of_withWrite hs rfl (.magic h))
  next h => exact moves ⟨_, finish_doWait_toStage s .tGap .size, .gapM h⟩
  next h => rw [stageSize, ← h]; exact moves (StageMove.of_withWrite hs rfl (.size h))
  next h => exact moves ⟨_, finish_doWait_toStage s .tGap .payload, .gapS h⟩
  next h =>
    cases hread : s.payRead s.txSent.toNat s.chunkLength with
    | error f => rw [stagePayload, hread]; exact .inr ⟨h, f, hread⟩
    | ok bytes =>
      rw [stagePayload_read hread, ← h]
      exact moves (StageMove.of_withWrite hs rfl (.payload h bytes hread))
  next h => rw [stageCksum, ← h]; exact moves (StageMove.of_withWrite hs rfl (.cksum h))
  next h => rw [stageRbPulse, ← h]; exact moves (StageMove.of_withLine hs rfl (.rbPulse h))

theorem allowed_txStep : Allowed s .txStep (exec .txStep s) := by
  by_cases hs : s.txStage = .idle
  · rw [exec_txStep, execTxStep, hs]; exact trivial
  · exact allowed_txStep_busy hs trivial

theorem allowed_stepRow {st : Stage} (hrow : stepRow st = some i) (hi : transmitSide i) : Allowed s i (exec i s) := by
  rw [exec_stepRow hrow]
  split
  next hs =>
    refine allowed_txStep_busy (fun hidle => ?_) hi
    rw [← hs, hidle] at hrow
    cases hrow
  next => exact trivial

theorem allowed_txRestart : Allowed s .txRestart (exec .txRestart s) := by
  obtain ⟨hbusy, hok, hfail, hclosed, -⟩ := restartPulsesLineB s
  by_cases hs : s.txStage = .idle
  · cases ho : s.linkOpen with
    | false => rw [hclosed hs ho]; exact .restartFailed hs (.closed ho)
    | true =>
      cases ha : s.answer with
      | ok => rw [hok hs ho ha]; exact .restarted hs ho
      | fail k => rw [hfail hs ho k ha]; exact .restartFailed hs (.failed ho [] (by simp))
  · rw [hbusy hs]; exact trivial

/-! ## The formatter -/

theorem allowed_failBuild (hi : hostSide i) (hs : s.txStage = .idle) (code : ErrCode) (e : SblError) :
    Allowed s i (failBuild code e s) := .buildFailed hi hs code e

theorem flatMap_le32_length (ws : List Word) : (ws.flatMap le32).length = 4 * ws.length := by
  rw [List.length_flatMap, List.map_congr_left (g := fun _ => 4) (fun w _ => le32_length w)]
  simp [Nat.mul_comm]

theorem allowed_imgParse (source : Source) : Allowed s (.imgParse source) (exec (.imgParse source) s) := by
  have hi : hostSide (.imgParse source) := ⟨id, id⟩
  show Allowed s _ (execImgParse source s)
  unfold execImgParse
  split
  next => exact trivial
  next hs =>
    have hs := not_not.1 hs
    split
    next => exact allowed_failBuild hi hs _ _
    next t =>
      unfold parseImage
      split
      next => exact allowed_failBuild hi hs _ _
      next ws _ =>
        split
        next => exact allowed_failBuild hi hs _ _
        next =>
          split
          next => exact trivial
          next hlen => exact .loaded hi hs _ (by rw [flatMap_le32_length]; exact Nat.not_lt.1 hlen)

theorem allowed_payLoad (bytes : List Byte) : Allowed s (.payLoad bytes) (exec (.payLoad bytes) s) := by
  have hi : hostSide (.payLoad bytes) := ⟨id, id⟩
  show Allowed s _ (execPayLoad bytes s)
  unfold execPayLoad
  split
  next => exact trivial
  next hs =>
    split
    next => exact trivial
    next hlen =>
      split
      next => exact allowed_failBuild hi (not_not.1 hs) _ _
      next => exact .loaded hi (not_not.1 hs) bytes (Nat.not_lt.1 hlen)

theorem allowed_frmBuild : Allowed s .frmBuild (exec .frmBuild s) := by
  have hi : hostSide .frmBuild := ⟨id, id⟩
  show Allowed s _ (execFrmBuild s)
  unfold execFrmBuild
  split
  next => exact trivial
  next hs =>
    split
    next => exact allowed_failBuild hi (not_not.1 hs) _ _
    next hne =>
      split
      next f hread => exact .inl ⟨f, hread⟩
      next payload hread => exact .built hi (not_not.1 hs) hne payload hread

/-! ## The receive path, the link, the configuration -/

theorem allowed_receive (hi : receiveSide i) (chunk : List Byte) : Allowed s i (receive chunk s) := by
  cases ho : s.linkOpen with
  | false => rw [receive_closed ho]; exact trivial
  | true =>
    cases hf : fits s.params.pendMax (s.rxPending.length + chunk.length) with
    | false => rw [receive_full ho hf]; exact trivial
    | true => rw [receive_eq_next.2 ⟨ho, hf, rfl⟩]; exact .received hi chunk ho hf

theorem allowed_rxTexp : Allowed s .rxTexp (exec .rxTexp s) := by
  by_cases ha : s.rxTimer = .armed
  · rw [exec_rxTexp_armed ha]; exact .expired ha
  · rw [exec_rxTexp_notArmed ha]; exact trivial

theorem allowed_rxQto : Allowed s .rxQto (exec .rxQto s) := by
  cases hq : s.rxQtoReq with
  | false => rw [exec_rxQto_noRequest hq]; exact trivial
  | true => rw [exec_rxQto_request hq]; exact .flushed hq

theorem allowed_txUpload (r : Bool) : Allowed s (.txUpload r) (exec (.txUpload r) s) := by
  by_cases hs : s.txStage = .idle
  · cases hv : s.frmValid with
    | false => rw [exec_txUpload_noFrame hs hv]; exact trivial
    | true => rw [exec_txUpload_accepted hs hv]; exact .uploadBegun r hs hv
  · rw [exec_txUpload_busy hs]; exact trivial

theorem allowed_linkOpen : Allowed s .linkOpen (exec .linkOpen s) := by
  cases ho : s.linkOpen with
  | true => rw [exec_linkOpen_open ho]; exact trivial
  | false => rw [exec_linkOpen_closed ho]; exact .linkAsked ho _ _

theorem allowed_linkClose : Allowed s .linkClose (exec .linkClose s) := by
  cases ho : s.linkOpen with
  | false => rw [exec_linkClose_closed ho]; exact trivial
  | true => rw [exec_linkClose_open ho]; exact .linkClosed _

theorem allowed_linkDisc : Allowed s .linkDisc (exec .linkDisc s) := by
  cases ho : s.linkOpen with
  | false => rw [exec_linkDisc_closed ho]; exact trivial
  | true =>
    by_cases hs : s.txStage = .idle
    · rw [exec_linkDisc_idle ho hs]; exact .disconnected
    · rw [exec_linkDisc_busy ho hs]
      by_cases hp : s.txStage = .rbPulse
      · rw [hp]; exact .pulseCut hp
      · have hu := Stage.uploading_of_ne hs hp
        rw [failAt_eq_failedAt hu]; exact .uploadCut hu

theorem allowed_configure (hi : hostSide i) (r : CfgReg) (v : Word) : Allowed s i (configure r v s) := by
  by_cases hs : s.txStage = .idle
  · by_cases hv : r = .chunk ∧ v = 0
    · obtain ⟨rfl, rfl⟩ := hv
      rw [configure_zeroChunk hs]; exact trivial
    · rw [configure_next.2 ⟨hs, hv, rfl⟩]; exact .configured hi hs r v hv
  · rw [configure_busy hs]; exact trivial

theorem allowed_cfgSet (idx : Byte) (v : Word) : Allowed s (.cfgSet idx v) (exec (.cfgSet idx v) s) := by
  by_cases hs : s.txStage = .idle
  · rw [exec_cfgSet_idle hs]
    split
    next => exact trivial
    next r _ => exact allowed_configure ⟨id, id⟩ r v
  · rw [exec_cfgSet_busy hs]; exact trivial

theorem allowed_frameChecksum : Allowed s .frameChecksum (exec .frameChecksum s) := by
  show Allowed s _ (execFrameChecksum s)
  unfold execFrameChecksum
  split
  next => exact .reported _ _
  next => exact .drew ⟨id, id⟩ _

/-! ## Every operation -/

theorem exec_allowed (i : Instr) (s : State) : Allowed s i (exec i s) := by
  cases i
  case cksInit => exact .summed ⟨id, id⟩ _ _
  case cksByte => exact .summed ⟨id, id⟩ _ _
  case imgParse source => exact allowed_imgParse source
  case frmBuild => exact allowed_frmBuild
  case payLoad bytes => exact allowed_payLoad bytes
  case rxBytes chunk => exact allowed_receive (i := .rxBytes chunk) trivial chunk
  case rxTexp => exact allowed_rxTexp
  case rxQto => exact allowed_rxQto
  case txUpload r => exact allowed_txUpload r
  case txRestart => exact allowed_txRestart
  case txStep => exact allowed_txStep
  case linkOpen => exact allowed_linkOpen
  case linkClose => exact allowed_linkClose
  case linkDisc => exact allowed_linkDisc
  case cfgSet idx v => exact allowed_cfgSet idx v
  case txStepRstLow => exact allowed_stepRow (st := .rstLow) rfl trivial
  case txStepRstSettle => exact allowed_stepRow (st := .rstSettle) rfl trivial
  case txStepMagic => exact allowed_stepRow (st := .magic) rfl trivial
  case txStepGapM => exact allowed_stepRow (st := .gapM) rfl trivial
  case txStepSize => exact allowed_stepRow (st := .size) rfl trivial
  case txStepGapS => exact allowed_stepRow (st := .gapS) rfl trivial
  case txStepPayload => exact allowed_stepRow (st := .payload) rfl trivial
  case txStepCksum => exact allowed_stepRow (st := .cksum) rfl trivial
  case txStepRbPulse => exact allowed_stepRow (st := .rbPulse) rfl trivial
  case cfgSetTDown v => exact allowed_configure ⟨id, id⟩ .tDown v
  case cfgSetTSettle v => exact allowed_configure ⟨id, id⟩ .tSettle v
  case cfgSetTGap v => exact allowed_configure ⟨id, id⟩ .tGap v
  case cfgSetChunk v => exact allowed_configure ⟨id, id⟩ .chunk v
  case cfgSetTSample v => exact allowed_configure ⟨id, id⟩ .tSample v
  case cfgSetTQuiet v => exact allowed_configure ⟨id, id⟩ .tQuiet v
  case cfgSetTRestart v => exact allowed_configure ⟨id, id⟩ .tRestart v
  case tokNl => exact allowed_receive (i := .tokNl) trivial [newline]
  case tokPfxD => exact allowed_receive (i := .tokPfxD) trivial prefixD
  case tokPfxI => exact allowed_receive (i := .tokPfxI) trivial prefixI
  case tokPfxW => exact allowed_receive (i := .tokPfxW) trivial prefixW
  case tokPfxE => exact allowed_receive (i := .tokPfxE) trivial prefixE
  case frameChecksum => exact allowed_frameChecksum
  all_goals exact .reported _ _

/-- The inversion of every operation at once. -/
theorem exec_effect (h : exec i s = .next t) : Effect s i t := by
  have ha := exec_allowed i s
  rw [h] at ha
  exact ha

theorem exec_fault {f : Fault} (h : exec i s = .fault f) : Unreadable s := by
  have ha := exec_allowed i s
  rw [h] at ha
  exact ha

/-- A step is the effect of an operation on the state with that operation taken from the queue. -/
theorem step_effect (h : step s = .next t) : ∃ rest i, Effect { s with issue := rest } i t := by
  obtain ⟨_, rest, i, -, -, he⟩ := step_next h
  exact ⟨rest, i, exec_effect he⟩

/-- Taking an operation from the queue does not fault; only running it does. -/
theorem step_fault {f : Fault} (h : step s = .fault f) : ∃ rest, Unreadable { s with issue := rest } := by
  unfold step State.fetch at h
  split at h
  next => cases h
  next hf =>
    split at hf
    next => cases hf
    next it rest hq =>
      split at hf <;> cases hf
      exact ⟨rest, exec_fault h⟩

end Sys2Proof.Machine
end

section
/-! PROOFS. The invariants of the whole machine (42_reassembler R142, 43_transmit R167 to R172), kept by every
effect. -/

namespace Sys2Proof

theorem Stage.not_uploading_idle {stage : Stage} (h : stage = .idle) : stage.uploading ≠ true := by
  rw [h]; decide

theorem Stage.uploading_of_beforePayload {stage : Stage} (h : stage.beforePayload = true) :
    stage.uploading = true := by
  cases stage <;> cases h <;> rfl

end Sys2Proof

namespace Sys2Proof.Machine

variable {s t u : State} {i : Instr}

/-! ## The receive invariant -/

/-- The registers the receive invariant speaks of are the same. -/
structure SameReceive (s t : State) : Prop where
  msgs : t.msgs = s.msgs
  rxPending : t.rxPending = s.rxPending
  rxTimer : t.rxTimer = s.rxTimer
  rxQtoReq : t.rxQtoReq = s.rxQtoReq
  linkOpen : t.linkOpen = s.linkOpen
  params : t.params = s.params

theorem RxInv.congr (h : RxInv s) (e : SameReceive s t) : RxInv t where
  pending := by rw [e.rxPending]; exact h.pending
  messages := by rw [e.msgs]; exact h.messages
  armed := by rw [e.rxPending, e.rxQtoReq, e.rxTimer]; exact h.armed
  closed := by rw [e.linkOpen, e.rxPending, e.rxTimer, e.rxQtoReq]; exact h.closed
  capacity := by rw [e.params, e.rxPending]; exact h.capacity

theorem Unsent.sameReceive (h : Unsent s u) : SameReceive s u := by
  cases h <;> exact ⟨rfl, rfl, rfl, rfl, rfl, rfl⟩

theorem StageMove.sameReceive (h : StageMove s t) : SameReceive s t := by
  cases h
  case uploadFails h => exact ⟨h.sameReceive.msgs, h.sameReceive.rxPending, h.sameReceive.rxTimer,
    h.sameReceive.rxQtoReq, h.sameReceive.linkOpen, h.sameReceive.params⟩
  case pulseFails h => exact ⟨h.sameReceive.msgs, h.sameReceive.rxPending, h.sameReceive.rxTimer,
    h.sameReceive.rxQtoReq, h.sameReceive.linkOpen, h.sameReceive.params⟩
  all_goals exact ⟨rfl, rfl, rfl, rfl, rfl, rfl⟩

/-- A hung-up link holds nothing. -/
theorem RxInv.hungUp (hm : ∀ m ∈ t.msgs, m.ok) (hp : t.rxPending = []) (ht : t.rxTimer = .idle)
    (hq : t.rxQtoReq = false) : RxInv t where
  pending := by rw [hp]; exact ⟨rfl, rfl⟩
  messages := hm
  armed h := absurd hp h
  closed _ := ⟨hp, ht, hq⟩
  capacity := by rw [hp]; cases t.params.pendMax <;> rfl

theorem RxInv.passed (h : RxInv s) (ho : s.linkOpen = true) {chunk : List Byte}
    (hf : fits s.params.pendMax (s.rxPending.length + chunk.length) = true) : RxInv (s.passed chunk) where
  pending := splitAll_rest _
  messages := by
    intro m hm
    obtain hm | hm := List.mem_append.1 hm
    · exact h.messages m hm
    · exact stamp_ok (splitAll_wholeText _) hm
  armed hp _ := if_neg hp
  closed hc := absurd (hc.symm.trans ho) Bool.false_ne_true
  capacity := fits_mono hf ((splitAll_rest_length _).trans (List.length_append).le)

theorem RxInv.received (h : RxInv s) (ho : s.linkOpen = true) {chunk : List Byte}
    (hf : fits s.params.pendMax (s.rxPending.length + chunk.length) = true) : RxInv (s.received chunk) := by
  by_cases hc : chunk = []
  · rw [hc, State.received_nil]
    by_cases hp : s.rxPending = []
    · rw [s.rearm_nil hp]; exact h
    · rw [s.rearm_pending hp]
      exact { h with armed := fun _ _ => rfl, closed := fun hc => absurd (hc.symm.trans ho) Bool.false_ne_true }
  · rw [s.received_chunk hc]; exact h.passed ho hf

theorem RxInv.linkOpen_of_request (h : RxInv s) (hq : s.rxQtoReq = true) : s.linkOpen ≠ false := by
  intro hc
  obtain ⟨-, -, hno⟩ := h.closed hc
  exact Bool.false_ne_true (hno.symm.trans hq)

/-- A flush emits a whole text: nothing pending holds a token. -/
theorem RxInv.flushed (h : RxInv s) (hq : s.rxQtoReq = true) : RxInv ({ s with rxQtoReq := false } : State).flush := by
  have hopen := h.linkOpen_of_request hq
  by_cases hp : s.rxPending = []
  · rw [State.flush_nil (s := { s with rxQtoReq := false }) hp]
    exact { h with armed := fun hne => absurd hp hne, closed := fun hc => absurd hc hopen }
  · rw [State.flush_pending (s := { s with rxQtoReq := false }) hp]
    have hwhole := WholeText.of_tokenFree h.pending hp
    refine { h with
      pending := ⟨rfl, rfl⟩
      messages := fun m hm => ?_
      armed := fun hne => absurd rfl hne
      closed := fun hc => absurd hc hopen
      capacity := fits_mono h.capacity (Nat.zero_le _) }
    obtain hm | hm := List.mem_append.1 hm
    · exact h.messages m hm
    · obtain rfl := List.mem_singleton.1 hm
      exact ⟨hwhole.nonempty, hwhole.noInnerMark, hwhole.newlineLast, rfl⟩

theorem RxInv.expired (h : RxInv s) (ha : s.rxTimer = .armed) :
    RxInv { s with rxTimer := .idle, rxQtoReq := true } := by
  have hopen : s.linkOpen ≠ false := fun hc => by
    obtain ⟨-, hidle, -⟩ := h.closed hc
    rw [ha] at hidle
    cases hidle
  exact { h with armed := fun _ hq => absurd hq.symm Bool.false_ne_true, closed := fun hc => absurd hc hopen }

theorem RxInv.effect (h : RxInv s) (e : Effect s i t) : RxInv t := by
  cases e
  case received chunk ho hf _ => exact (h.received ho hf).congr ⟨rfl, rfl, rfl, rfl, rfl, rfl⟩
  case expired ha => exact (h.expired ha).congr ⟨rfl, rfl, rfl, rfl, rfl, rfl⟩
  case flushed hq => exact (h.flushed hq).congr ⟨rfl, rfl, rfl, rfl, rfl, rfl⟩
  case restartFailed _ hu =>
    exact (h.congr hu.sameReceive).congr ⟨rfl, rfl, rfl, rfl, rfl, rfl⟩
  case stepped _ hm => exact h.congr hm.sameReceive
  case linkAsked hc o r =>
    obtain ⟨hp, ht, hq⟩ := h.closed hc
    exact .hungUp h.messages hp ht hq
  case linkClosed => exact .hungUp h.messages rfl rfl rfl
  case disconnected => exact .hungUp h.messages rfl rfl rfl
  case uploadCut => exact .hungUp h.messages rfl rfl rfl
  case pulseCut => exact .hungUp h.messages rfl rfl rfl
  case configured =>
    exact h.congr ⟨by simp, by simp, by simp, by simp, by simp, by simp⟩
  all_goals exact h.congr ⟨rfl, rfl, rfl, rfl, rfl, rfl⟩

/-! ## The progress register, 43_transmit R172 -/

theorem hundred_mul_div_le {sent size : Nat} (hle : sent ≤ size) : 100 * sent / size ≤ 100 := by
  apply Nat.div_le_of_le_mul
  rw [Nat.mul_comm size]
  exact Nat.mul_le_mul_left 100 hle

theorem progressOf_toNat {sent size : Word} (hle : sent.toNat ≤ size.toNat) :
    (progressOf sent size).toNat = 100 * sent.toNat / size.toNat := by
  have hmax := hundred_mul_div_le hle
  rw [progressOf, BitVec.toNat_ofNat, Nat.mod_eq_of_lt (by omega)]

theorem progressOf_le {sent size : Word} (hle : sent.toNat ≤ size.toNat) : (progressOf sent size).toNat ≤ 100 := by
  rw [progressOf_toNat hle]; exact hundred_mul_div_le hle

theorem progressOf_mono {sent sent' size : Word} (hle : sent.toNat ≤ size.toNat) (hlt : sent'.toNat ≤ sent.toNat) :
    (progressOf sent' size).toNat ≤ (progressOf sent size).toNat := by
  rw [progressOf_toNat hle, progressOf_toNat (hlt.trans hle)]
  exact Nat.div_le_div_right (Nat.mul_le_mul_left 100 hlt)

theorem progressOf_eq_hundred {sent size : Word} (hs : size ≠ 0) (hle : sent.toNat ≤ size.toNat) :
    (progressOf sent size).toNat = 100 ↔ sent = size := by
  have hpos := BitVec.toNat_pos_of_ne_zero hs
  rw [progressOf_toNat hle]
  constructor
  · intro h
    have hmul := Nat.div_mul_le_self (100 * sent.toNat) size.toNat
    rw [h] at hmul
    exact BitVec.eq_of_toNat_eq (by omega)
  · rintro rfl
    exact Nat.mul_div_cancel 100 hpos

theorem progressOf_zero (size : Word) : progressOf 0 size = 0 := by
  simp [progressOf]

/-! ## The invariant of the formatter and the transmitter, through the updates of the state -/

/-- In an upload there is a frame, and a frame has a payload. -/
theorem TxInv.frmSize_ne_zero (h : TxInv s) (hu : s.txStage.uploading = true) : s.frmSize ≠ 0 :=
  (h.built (h.running hu).2).1

/-- What has been sent is never more than there is. -/
theorem TxInv.sent_le (h : TxInv s) (hu : s.txStage.uploading = true) : s.txSent.toNat ≤ s.frmSize.toNat := by
  cases hs : s.txStage
  case payload => exact (h.sentDuring hs).le
  case cksum => rw [h.sentAfter hs]
  case idle => rw [hs] at hu; cases hu
  case rbPulse => rw [hs] at hu; cases hu
  all_goals
    rw [h.sentBefore (by rw [hs]; rfl)]
    exact Nat.zero_le _

/-- Registers of the receive path and the model's own fields do not matter to it. -/
theorem TxInv.received (h : TxInv s) (chunk : List Byte) : TxInv (s.received chunk) := by
  rw [State.received_eq]; exact { h with }

theorem TxInv.flush (h : TxInv s) : TxInv s.flush := by
  by_cases hp : s.rxPending = []
  · rw [State.flush_nil hp]; exact h
  · rw [State.flush_pending hp]; exact { h with }

theorem TxInv.withEvents (h : TxInv s) {events : List WireEvent} (hw : ∀ bs, .write bs ∈ events → bs ≠ []) :
    TxInv { s with wire := s.wire ++ events } :=
  { h with
    writes := fun bs hm => (List.mem_append.1 hm).elim (h.writes bs) (hw bs) }

theorem TxInv.answeredWith (h : TxInv s) {events : List WireEvent} (hw : ∀ bs, .write bs ∈ events → bs ≠ []) :
    TxInv (s.answeredWith events) :=
  { h.withEvents hw with }

theorem TxInv.unsent (h : TxInv s) (hu : Unsent s u) : TxInv u ∧ u.txStage = s.txStage := by
  cases hu with
  | closed => exact ⟨h, rfl⟩
  | failed _ events hw => exact ⟨h.answeredWith hw, rfl⟩

/-- An upload that fails in any of its stages (43_transmit R171). -/
theorem TxInv.failedAt (h : TxInv s) {stage : Stage} (hu : stage.uploading = true) : TxInv (failedAt stage s) :=
  { h with
    built := fun hv => absurd hv Bool.false_ne_true
    running := fun hu => absurd hu Bool.false_ne_true
    resting := fun _ => by show Status.fail ≠ .run; decide
    sentBefore := fun hb => absurd hb Bool.false_ne_true
    sentDuring := fun hs => nomatch hs
    sentAfter := fun hs => nomatch hs
    progress := fun hu => absurd hu Bool.false_ne_true
    progressOk := fun hs => nomatch hs
    failStage := fun _ => hu
    lineAHeld := fun hs => nomatch hs
    lineBHeld := fun hs => nomatch hs }

/-- The end of a restart pulse: the status of the last upload stays (43_transmit R176). -/
theorem TxInv.endPulse (h : TxInv s) (hs : s.txStage = .rbPulse) (level : Level) (e : ErrCode) (r : Report) :
    TxInv { s with lineB := level, txErr := e, txStage := .idle, report := r } :=
  { h with
    running := fun hu => absurd hu Bool.false_ne_true
    resting := fun _ => h.resting (by rw [hs]; rfl)
    sentBefore := fun hb => absurd hb Bool.false_ne_true
    sentDuring := fun hs => nomatch hs
    sentAfter := fun hs => nomatch hs
    progress := fun hu => absurd hu Bool.false_ne_true
    lineAHeld := fun hs => nomatch hs
    lineBHeld := fun hs => nomatch hs }

/-- The start of a restart pulse. -/
theorem TxInv.startPulse (h : TxInv s) (hs : s.txStage = .idle) :
    TxInv { s with lineB := .active, txErr := .none, txStage := .rbPulse, report := .done } :=
  { h with
    running := fun hu => absurd hu Bool.false_ne_true
    resting := fun _ => h.resting (by rw [hs]; rfl)
    sentBefore := fun hb => absurd hb Bool.false_ne_true
    sentDuring := fun hs => nomatch hs
    sentAfter := fun hs => nomatch hs
    progress := fun hu => absurd hu Bool.false_ne_true
    lineAHeld := fun hs => nomatch hs
    lineBHeld := fun _ => rfl }

/-- Going on from one stage of an upload to another that has nothing sent yet. -/
theorem TxInv.nextStage (h : TxInv s) (hb : s.txStage.beforePayload = true) (stage : Stage) (level : Level)
    (hu : stage.uploading = true) (hc : stage ≠ .cksum) (hl : stage = .rstSettle → level = .active) (r : Report) :
    TxInv { s with lineA := level, txStage := stage, report := r } := by
  have hup := Stage.uploading_of_beforePayload hb
  have hsent := h.sentBefore hb
  have hsize := BitVec.toNat_pos_of_ne_zero (h.frmSize_ne_zero hup)
  exact { h with
    running := fun _ => h.running hup
    resting := fun hr => absurd (hr.symm.trans hu) Bool.false_ne_true
    sentBefore := fun _ => hsent
    sentDuring := fun _ => by rw [hsent]; exact hsize
    sentAfter := fun hs => absurd hs hc
    progress := fun _ => h.progress hup
    lineAHeld := hl
    lineBHeld := fun hs => by
      have hs : stage = .rbPulse := hs
      rw [hs] at hu
      cases hu }

/-- Completion: everything is sent, so the progress is 100 (43_transmit R169). -/
theorem TxInv.completed (h : TxInv s) (hs : s.txStage = .cksum) (r : Report) : TxInv (s.complete.reply r) := by
  have hup : s.txStage.uploading = true := by rw [hs]; rfl
  have hsent := h.sentAfter hs
  have hle : s.txSent.toNat ≤ s.frmSize.toNat := h.sent_le hup
  have hfull : s.txProgress = 100 := by
    rw [h.progress hup]
    exact BitVec.eq_of_toNat_eq ((progressOf_eq_hundred (h.frmSize_ne_zero hup) hle).2 hsent)
  exact { h with
    built := fun hv => absurd hv Bool.false_ne_true
    running := fun hu => absurd hu Bool.false_ne_true
    resting := fun _ => by show Status.ok ≠ .run; decide
    sentBefore := fun hb => absurd hb Bool.false_ne_true
    sentDuring := fun hs => nomatch hs
    sentAfter := fun hs => nomatch hs
    progress := fun hu => absurd hu Bool.false_ne_true
    progressOk := fun _ => hfull
    failStage := fun hs => nomatch hs
    lineAHeld := fun hs => nomatch hs
    lineBHeld := fun hs => nomatch hs }

/-- A chunk that is counted (43_transmit R167, R172). -/
theorem TxInv.chunkSent (h : TxInv s) (hs : s.txStage = .payload) : TxInv (s.chunkSent s.chunkLength) := by
  have hup : s.txStage.uploading = true := by rw [hs]; rfl
  have hlt := h.sentDuring hs
  have hcount := State.chunkSent_txSent_toNat hlt.le
  have hle : (BitVec.ofNat 32 (s.txSent.toNat + s.chunkLength)).toNat ≤ s.frmSize.toNat := by
    have := s.chunkLength_le
    omega
  have hstage : (s.chunkSent s.chunkLength).txStage =
      if BitVec.ofNat 32 (s.txSent.toNat + s.chunkLength) = s.frmSize then .cksum else .payload := rfl
  have hcases : (s.chunkSent s.chunkLength).txStage = .cksum ∧
        BitVec.ofNat 32 (s.txSent.toNat + s.chunkLength) = s.frmSize ∨
      (s.chunkSent s.chunkLength).txStage = .payload ∧
        BitVec.ofNat 32 (s.txSent.toNat + s.chunkLength) ≠ s.frmSize := by
    rw [hstage]
    split
    next he => exact .inl ⟨rfl, he⟩
    next hne => exact .inr ⟨rfl, hne⟩
  have hup' : (s.chunkSent s.chunkLength).txStage.uploading = true := by
    obtain ⟨he, -⟩ | ⟨he, -⟩ := hcases <;> rw [he] <;> rfl
  have hnot (stage : Stage) (h1 : stage ≠ .cksum) (h2 : stage ≠ .payload) :
      (s.chunkSent s.chunkLength).txStage ≠ stage := by
    obtain ⟨he, -⟩ | ⟨he, -⟩ := hcases <;> rw [he]
    · exact h1.symm
    · exact h2.symm
  exact { h with
    running := fun _ => h.running hup
    resting := fun hr => absurd (hr.symm.trans hup') Bool.false_ne_true
    sentBefore := fun hb => by
      obtain ⟨he, -⟩ | ⟨he, -⟩ := hcases <;> rw [he] at hb <;> cases hb
    sentDuring := fun hp => by
      obtain ⟨he, -⟩ | ⟨-, hne⟩ := hcases
      · rw [he] at hp; cases hp
      · exact Nat.lt_of_le_of_ne hle fun heq => hne (BitVec.eq_of_toNat_eq heq)
    sentAfter := fun hc => by
      obtain ⟨-, heq⟩ | ⟨he, -⟩ := hcases
      · exact heq
      · rw [he] at hc; cases hc
    progress := fun _ => rfl
    progressMax := progressOf_le hle
    progressOk := fun hok => by
      have hrun := (h.running hup).1
      have hok : s.txStatus = .ok := hok
      rw [hrun] at hok
      cases hok
    lineAHeld := fun hs => absurd hs (hnot .rstSettle (by decide) (by decide))
    lineBHeld := fun hs => absurd hs (hnot .rbPulse (by decide) (by decide)) }

/-! ## The formatter -/

theorem TxInv.buildFailed (h : TxInv s) (hs : s.txStage = .idle) (code : ErrCode) :
    TxInv { s with frmValid := false, txErr := code } :=
  { h with
    built := fun hv => absurd hv Bool.false_ne_true
    running := fun hu => absurd hu (Stage.not_uploading_idle hs) }

/-- The length of a payload that fits `PAY_MAX` fits the register (41_frame_build R111). -/
theorem State.loadPayload_frmSize_toNat (hp : s.params.wf) {bytes : List Byte}
    (hlen : bytes.length ≤ s.params.payMax) : (s.loadPayload bytes).frmSize.toNat = bytes.length := by
  obtain ⟨-, hmax, -⟩ := hp
  have hlimit : Config.payMaxLimit < 2 ^ 32 := by decide
  rw [State.loadPayload_frmSize, BitVec.toNat_ofNat, Nat.mod_eq_of_lt (by omega)]

theorem TxInv.loadPayload (h : TxInv s) (hs : s.txStage = .idle) {bytes : List Byte}
    (hlen : bytes.length ≤ s.params.payMax) : TxInv (s.loadPayload bytes) := by
  have hsize := State.loadPayload_frmSize_toNat h.params hlen
  have hidle : (s.loadPayload bytes).txStage = .idle := hs
  exact { h with
    payWf := Memory.writeRun_wf h.payWf 0 bytes
    payRange := fun c hc => by
      obtain ⟨hold, -⟩ | hnew := (Memory.mem_writeRun _ _ _ _).1 hc
      · exact h.payRange c hold
      · have := (Memory.run_bounds hnew).2
        show c.1 < s.params.payMax
        omega
    payLoaded := fun a ha => by
      rw [hsize] at ha
      rw [State.loadPayload_pay_read h.payWf, if_pos ha, List.getElem?_eq_getElem ha]
      rfl
    sizeFits := by rw [hsize]; exact hlen
    built := fun hv => absurd hv Bool.false_ne_true
    running := fun hu => absurd hu (Stage.not_uploading_idle hidle)
    sentBefore := fun hb => absurd (Stage.uploading_of_beforePayload hb) (Stage.not_uploading_idle hidle)
    sentDuring := fun hp => by rw [hidle] at hp; cases hp
    sentAfter := fun hc => by rw [hidle] at hc; cases hc
    progress := fun hu => absurd hu (Stage.not_uploading_idle hidle) }

theorem TxInv.sealFrame (h : TxInv s) (hs : s.txStage = .idle) (hne : s.frmSize ≠ 0) {payload : List Byte}
    (hread : s.payRead 0 s.frmSize.toNat = .ok payload) : TxInv (s.sealFrame payload) :=
  { h with
    built := fun _ => ⟨hne, payload, (State.payRead_ok.1 hread).2, rfl⟩
    running := fun hu => absurd hu (Stage.not_uploading_idle hs) }

theorem TxInv.beginUpload (h : TxInv s) (hv : s.frmValid = true) (r : Bool) : TxInv (s.beginUpload r) := by
  have hstage : (s.beginUpload r).txStage = .rstLow ∨ (s.beginUpload r).txStage = .magic := by
    cases r
    · exact .inr rfl
    · exact .inl rfl
  have hup : (s.beginUpload r).txStage.uploading = true := by
    obtain he | he := hstage <;> rw [he] <;> rfl
  have hnot (stage : Stage) (h1 : stage ≠ .rstLow) (h2 : stage ≠ .magic) : (s.beginUpload r).txStage ≠ stage := by
    obtain he | he := hstage <;> rw [he]
    · exact h1.symm
    · exact h2.symm
  exact { h with
    running := fun _ => ⟨rfl, hv⟩
    resting := fun hr => absurd (hr.symm.trans hup) Bool.false_ne_true
    sentBefore := fun _ => rfl
    sentDuring := fun hp => absurd hp (hnot .payload (by decide) (by decide))
    sentAfter := fun hc => absurd hc (hnot .cksum (by decide) (by decide))
    progress := fun _ => (progressOf_zero _).symm
    progressMax := Nat.zero_le _
    progressOk := fun hok => nomatch hok
    failStage := fun hf => nomatch hf
    lineAHeld := fun hs => absurd hs (hnot .rstSettle (by decide) (by decide))
    lineBHeld := fun hs => absurd hs (hnot .rbPulse (by decide) (by decide)) }

theorem TxInv.setCfg (h : TxInv s) {r : CfgReg} {v : Word} (hv : ¬ (r = .chunk ∧ v = 0)) : TxInv (s.setCfg v r) := by
  cases r
  case chunk => exact { h with chunk := fun hz => hv ⟨rfl, hz⟩ }
  all_goals exact { h with }

/-! ## Every effect -/

theorem noWrite_line_wait (x : Line) (level : Level) (d : CfgReg) (v : Word) :
    ∀ bs, WireEvent.write bs ∈ [.line x level, .wait d v] → bs ≠ [] := by
  intro bs h
  simp at h

theorem noWrite_wait (d : CfgReg) (v : Word) : ∀ bs, WireEvent.write bs ∈ [.wait d v] → bs ≠ [] := by
  intro bs h
  simp at h

theorem write_singleton {bytes : List Byte} (hb : bytes ≠ []) :
    ∀ bs, WireEvent.write bs ∈ [.write bytes] → bs ≠ [] := by
  intro bs h
  cases List.mem_singleton.1 h
  exact hb

theorem TxInv.stageMove (h : TxInv s) (m : StageMove s t) : TxInv t := by
  have before {stage : Stage} (hs : s.txStage = stage) (hb : stage.beforePayload = true) :
      s.txStage.beforePayload = true := by rw [hs]; exact hb
  have wrote {bytes : List Byte} (hb : bytes ≠ []) := h.answeredWith (write_singleton hb)
  have waited := h.withEvents (noWrite_wait .tGap s.cfgTGap)
  cases m
  case rstLow hs _ =>
    exact (h.answeredWith (noWrite_line_wait .a .active .tDown s.cfgTDown)).nextStage (before hs rfl) .rstSettle .active
      rfl (by decide) (fun _ => rfl) _
  case rstSettle hs _ =>
    exact (h.answeredWith (noWrite_line_wait .a .inactive .tSettle s.cfgTSettle)).nextStage (before hs rfl) .magic
      .inactive rfl (by decide) (fun he => nomatch he) _
  case magic hs =>
    exact (wrote (bytes := be32 Config.magic) (List.cons_ne_nil _ _)).nextStage (before hs rfl) .gapM s.lineA rfl
      (by decide) (fun he => nomatch he) _
  case gapM hs => exact waited.nextStage (before hs rfl) .size s.lineA rfl (by decide) (fun he => nomatch he) _
  case size hs =>
    exact (wrote (bytes := le32 s.frmSize) (List.cons_ne_nil _ _)).nextStage (before hs rfl) .gapS s.lineA rfl
      (by decide) (fun he => nomatch he) _
  case gapS hs => exact waited.nextStage (before hs rfl) .payload s.lineA rfl (by decide) (fun he => nomatch he) _
  case payload hs bytes hread =>
    have hlen := ((Memory.readRun_eq_some h.payWf _ _ _).1 (State.payRead_ok.1 hread).2).1
    have hpos := State.chunkLength_pos h.chunk (h.sentDuring hs)
    have hb : bytes ≠ [] := List.ne_nil_of_length_pos (by rw [hlen]; exact hpos)
    exact { (wrote hb).chunkSent hs with }
  case cksum hs => exact (wrote (bytes := le32 s.frmCksum) (List.cons_ne_nil _ _)).completed hs _
  case rbPulse hs _ =>
    exact (h.answeredWith (events := [.line .b .inactive]) (by simp)).endPulse hs .inactive _ _
  case uploadFails hu hq => exact (h.unsent hq).1.failedAt hu
  case pulseFails hs hq =>
    obtain ⟨hinv, hstage⟩ := h.unsent hq
    exact hinv.endPulse (hstage.trans hs) _ _ _

theorem TxInv.effect (h : TxInv s) (e : Effect s i t) : TxInv t := by
  cases e
  case buildFailed hs code _ _ => exact { h.buildFailed hs code with }
  case loaded hs bytes hlen _ => exact { h.loadPayload hs hlen with }
  case built hs hne payload hread _ => exact { h.sealFrame hs hne hread with }
  case received chunk _ _ _ => exact { h.received chunk with }
  case flushed => exact { TxInv.flush (s := { s with rxQtoReq := false }) { h with } with }
  case uploadBegun r _ hv => exact { h.beginUpload hv r with }
  case restarted hs _ => exact (h.answeredWith (noWrite_line_wait .b .active .tRestart s.cfgTRestart)).startPulse hs
  case restartFailed hs hq => exact { (h.unsent hq).1 with }
  case stepped _ hm => exact h.stageMove hm
  case uploadCut hu => exact TxInv.failedAt (s := s.hangUp) { h with } hu
  case pulseCut hs => exact TxInv.endPulse (s := s.hangUp) { h with } hs _ _ _
  case configured _ _ _ hv _ => exact { h.setCfg hv with }
  all_goals exact { h with }

end Sys2Proof.Machine
end

section
/-! PROOFS. What the list of effects says of the whole machine: the two invariants, safety, and the frames of
60_exceptions R216, 20_memory R53, 10_state R24, R27 and R28. -/

namespace Sys2Proof.Machine

variable {s t u : State} {i : Instr}

/-! ## What a stage and a failed question leave unchanged -/

/-- The registers of a frame in use and of the configuration are the same (20_memory R53). -/
structure SameFrame (s t : State) : Prop where
  pay : t.pay = s.pay
  frmSize : t.frmSize = s.frmSize
  frmCksum : t.frmCksum = s.frmCksum
  cfg : ∀ r, t.cfg r = s.cfg r

theorem Unsent.sameFrame (h : Unsent s u) : SameFrame s u := by
  cases h <;> exact ⟨rfl, rfl, rfl, fun _ => rfl⟩

theorem StageMove.sameFrame (h : StageMove s t) : SameFrame s t := by
  cases h
  case uploadFails _ hq => exact { hq.sameFrame with }
  case pulseFails _ hq => exact { hq.sameFrame with }
  all_goals exact ⟨rfl, rfl, rfl, fun _ => rfl⟩

/-- While the sequencer is busy no effect that is left touches a frame. -/
theorem Effect.sameFrame (e : Effect s i t) (hs : s.txStage ≠ .idle) : SameFrame s t := by
  cases e
  case received chunk _ _ _ => rw [State.received_eq]; exact ⟨rfl, rfl, rfl, fun _ => rfl⟩
  case flushed => exact ⟨by simp, by simp, by simp, fun r => by cases r <;> simp [State.cfg]⟩
  case buildFailed hidle _ _ _ | loaded hidle _ _ _ | built hidle _ _ _ _ | configured hidle _ _ _ _ =>
    exact absurd hidle hs
  case restartFailed hidle _ => exact absurd hidle hs
  case stepped _ hm => exact hm.sameFrame
  all_goals exact ⟨rfl, rfl, rfl, fun _ => rfl⟩

/-! ## The traces only grow, 10_state R24 and R27 -/

theorem Unsent.wire (h : Unsent s u) : s.wire <+: u.wire := by
  cases h with
  | closed => exact ⟨[], List.append_nil _⟩
  | failed _ events => exact ⟨events, rfl⟩

theorem StageMove.wire (h : StageMove s t) : s.wire <+: t.wire := by
  cases h
  case uploadFails _ hq => exact hq.wire
  case pulseFails _ hq => exact hq.wire
  all_goals exact ⟨_, rfl⟩

theorem Effect.msgs (e : Effect s i t) : s.msgs <+: t.msgs := by
  cases e
  case received chunk _ _ _ => exact s.received_msgs_grow chunk
  case flushed => rw [State.reply_msgs, State.flush_msgs]; exact ⟨_, rfl⟩
  case restartFailed _ hq => exact hq.sameReceive.msgs ▸ ⟨[], List.append_nil _⟩
  case stepped _ hm => exact hm.sameReceive.msgs ▸ ⟨[], List.append_nil _⟩
  case configured => simp
  all_goals exact ⟨[], List.append_nil _⟩

theorem Effect.wire (e : Effect s i t) : s.wire <+: t.wire := by
  cases e
  case received chunk _ _ _ => rw [State.received_eq]; exact ⟨[], List.append_nil _⟩
  case flushed => simp
  case restarted => exact ⟨_, rfl⟩
  case restartFailed _ hq => exact hq.wire
  case stepped _ hm => exact hm.wire
  case configured => simp
  all_goals exact ⟨[], List.append_nil _⟩

theorem Effect.params (e : Effect s i t) : t.params = s.params := by
  cases e
  case received chunk _ _ _ => rw [State.received_eq]; rfl
  case flushed => simp
  case restartFailed _ hq => exact hq.sameReceive.params
  case stepped _ hm => exact hm.sameReceive.params
  case configured => simp
  all_goals rfl

/-! ## The two paths are apart, 60_exceptions R216 -/

theorem Unsent.crc (h : Unsent s u) : u.crc = s.crc := by
  cases h <;> rfl

theorem StageMove.crc (h : StageMove s t) : t.crc = s.crc := by
  cases h
  case uploadFails _ hq => exact hq.crc
  case pulseFails _ hq => exact hq.crc
  all_goals rfl

theorem State.flush_eq (s : State) : s.flush = { s with
    msgs := s.flush.msgs, draws := s.flush.draws, rxPending := s.flush.rxPending } := by
  by_cases hp : s.rxPending = []
  · rw [State.flush_nil hp]
  · rw [State.flush_pending hp]

theorem not_receiveSide_of_transmitSide (h : transmitSide i) : ¬ receiveSide i := by
  intro hr
  unfold receiveSide at hr
  split at hr
  case h_9 => exact hr
  all_goals exact h

theorem Effect.of_receiveSide (e : Effect s i t) (hi : receiveSide i) :
    t = { s with
      msgs := t.msgs
      rxPending := t.rxPending
      rxTimer := t.rxTimer
      rxQtoReq := t.rxQtoReq
      draws := t.draws
      report := t.report } := by
  cases e
  case received chunk _ _ _ => rw [State.received_eq]; rfl
  case flushed => rw [State.flush_eq]; rfl
  case reported => rfl
  case expired => rfl
  case stepped ht _ => exact absurd hi (not_receiveSide_of_transmitSide ht)
  case uploadBegun | restarted | restartFailed | linkAsked | linkClosed | disconnected | uploadCut | pulseCut =>
    exact hi.elim
  all_goals
    rename_i hh
    exact absurd hi hh.1

theorem Effect.of_transmitSide (e : Effect s i t) (hi : transmitSide i) : SameReceive s t ∧ t.crc = s.crc := by
  cases e
  case reported | uploadBegun | restarted => exact ⟨⟨rfl, rfl, rfl, rfl, rfl, rfl⟩, rfl⟩
  case restartFailed _ hq => exact ⟨{ hq.sameReceive with }, hq.crc⟩
  case stepped _ hm => exact ⟨hm.sameReceive, hm.crc⟩
  case received hr => exact absurd hr (not_receiveSide_of_transmitSide hi)
  case expired | flushed | linkAsked | linkClosed | disconnected | uploadCut | pulseCut => exact hi.elim
  all_goals
    rename_i hh
    exact absurd hi hh.2

/-! ## The control lines, 10_state R28 -/

theorem Unsent.lines (h : Unsent s u) : u.lineA = s.lineA ∧ u.lineB = s.lineB := by
  cases h <;> exact ⟨rfl, rfl⟩

theorem StageMove.lineA (h : StageMove s t) (hne : t.lineA ≠ s.lineA) :
    s.linkOpen = true ∧
      ((s.txStage = .rstLow ∧ t.lineA = .active) ∨ (s.txStage = .rstSettle ∧ t.lineA = .inactive)) := by
  cases h
  case rstLow hs ho => exact ⟨ho, .inl ⟨hs, rfl⟩⟩
  case rstSettle hs ho => exact ⟨ho, .inr ⟨hs, rfl⟩⟩
  case uploadFails _ hq | pulseFails _ hq => exact absurd hq.lines.1 hne
  all_goals exact absurd rfl hne

theorem StageMove.lineB (h : StageMove s t) (hne : t.lineB ≠ s.lineB) :
    s.linkOpen = true ∧ s.txStage = .rbPulse ∧ t.lineB = .inactive := by
  cases h
  case rbPulse hs ho => exact ⟨ho, hs, rfl⟩
  case uploadFails _ hq | pulseFails _ hq => exact absurd hq.lines.2 hne
  all_goals exact absurd rfl hne

theorem Effect.lineA (e : Effect s i t) (hne : t.lineA ≠ s.lineA) :
    transmitSide i ∧ s.linkOpen = true ∧
      ((s.txStage = .rstLow ∧ t.lineA = .active) ∨ (s.txStage = .rstSettle ∧ t.lineA = .inactive)) := by
  cases e
  case stepped hi hm => exact ⟨hi, hm.lineA hne⟩
  case received chunk _ _ _ => rw [State.received_eq] at hne; exact absurd rfl hne
  case flushed => rw [State.flush_eq] at hne; exact absurd rfl hne
  case restartFailed _ hq => exact absurd hq.lines.1 hne
  case configured => exact absurd (by simp) hne
  all_goals exact absurd rfl hne

theorem Effect.lineB (e : Effect s i t) (hne : t.lineB ≠ s.lineB) :
    transmitSide i ∧ s.linkOpen = true ∧
      ((i = .txRestart ∧ t.lineB = .active) ∨ (s.txStage = .rbPulse ∧ t.lineB = .inactive)) := by
  cases e
  case restarted _ ho => exact ⟨trivial, ho, .inl ⟨rfl, rfl⟩⟩
  case stepped hi hm =>
    obtain ⟨ho, hstage, hlevel⟩ := hm.lineB hne
    exact ⟨hi, ho, .inr ⟨hstage, hlevel⟩⟩
  case received chunk _ _ _ => rw [State.received_eq] at hne; exact absurd rfl hne
  case flushed => rw [State.flush_eq] at hne; exact absurd rfl hne
  case restartFailed _ hq => exact absurd hq.lines.2 hne
  case configured => exact absurd (by simp) hne
  all_goals exact absurd rfl hne

/-! ## The progress of a running upload -/

theorem Unsent.sent (h : Unsent s u) : u.txSent = s.txSent ∧ u.txProgress = s.txProgress := by
  cases h <;> exact ⟨rfl, rfl⟩

/-- A stage counts a chunk, or leaves the count (43_transmit R167, R171). -/
theorem StageMove.sent (h : StageMove s t) :
    (t.txSent = s.txSent ∧ t.txProgress = s.txProgress) ∨
      (s.txStage = .payload ∧ t.txSent = BitVec.ofNat 32 (s.txSent.toNat + s.chunkLength) ∧
        t.txProgress = progressOf t.txSent s.frmSize) := by
  cases h
  case payload hs bytes hread => exact .inr ⟨hs, rfl, rfl⟩
  case uploadFails _ hq | pulseFails _ hq => exact .inl hq.sent
  all_goals exact .inl ⟨rfl, rfl⟩

theorem TxInv.stageMove_sent_le (h : TxInv s) (hm : StageMove s t) :
    s.txSent.toNat ≤ t.txSent.toNat ∧ s.txProgress.toNat ≤ t.txProgress.toNat := by
  obtain ⟨hsent, hprogress⟩ | ⟨hs, hsent, hprogress⟩ := hm.sent
  · rw [hsent, hprogress]; exact ⟨Nat.le_refl _, Nat.le_refl _⟩
  · have hlt := h.sentDuring hs
    have hcount := State.chunkSent_txSent_toNat hlt.le
    have hle := s.chunkLength_le
    rw [hprogress, h.progress (by rw [hs]; rfl), hsent]
    exact ⟨by omega, progressOf_mono (by omega) (by omega)⟩

theorem TxInv.sent_mono (h : TxInv s) (hu : s.txStage.uploading = true) (e : Effect s i t) :
    s.txSent.toNat ≤ t.txSent.toNat ∧ s.txProgress.toNat ≤ t.txProgress.toNat := by
  have same (hsent : t.txSent = s.txSent) (hprogress : t.txProgress = s.txProgress) :
      s.txSent.toNat ≤ t.txSent.toNat ∧ s.txProgress.toNat ≤ t.txProgress.toNat := by
    rw [hsent, hprogress]; exact ⟨Nat.le_refl _, Nat.le_refl _⟩
  cases e
  case stepped _ hm => exact h.stageMove_sent_le hm
  case uploadBegun hidle _ => exact absurd hu (Stage.not_uploading_idle hidle)
  case received chunk _ _ _ => rw [State.received_eq] at same ⊢; exact same rfl rfl
  case flushed => exact same (by simp) (by simp)
  case restartFailed _ hq => exact same hq.sent.1 hq.sent.2
  case configured => exact same (by simp) (by simp)
  all_goals exact same rfl rfl

/-! ## Safety: both reads of `PAY` are of the payload -/

theorem TxInv.not_unreadable (h : TxInv s) : ¬ Unreadable s := by
  have readable {a n : Nat} (hle : a + n ≤ s.frmSize.toNat) (f : Fault) : s.payRead a n ≠ .error f := fun he => by
    obtain ⟨bs, hok, -⟩ := State.payRead_loaded h.payWf h.payLoaded h.sizeFits hle
    rw [hok] at he
    cases he
  rintro (⟨f, hf⟩ | ⟨hs, f, hf⟩)
  · exact readable (Nat.zero_add _).le f hf
  · have hlt := h.sentDuring hs
    have hle := s.chunkLength_le
    exact readable (by omega) f hf

/-! ## The obligations -/

/-- Settles O28: a step is an effect, and every effect keeps the invariant. -/
theorem stepKeepsReceiveInvariant : Obligations.StepKeepsReceiveInvariant := by
  intro s t h hstep
  obtain ⟨rest, i, e⟩ := step_effect hstep
  exact RxInv.effect (s := { s with issue := rest }) { h with } e

/-- Settles O42: a step is an effect, and every effect keeps the invariant. -/
theorem stepKeepsTransmitInvariant : Obligations.StepKeepsTransmitInvariant := by
  intro s t h hstep
  obtain ⟨rest, i, e⟩ := step_effect hstep
  exact TxInv.effect (s := { s with issue := rest }) { h with } e

/-- Settles O48: a fault is a read of `PAY` beyond what the invariant says is written. -/
theorem invariantStatesAreSafe : Obligations.InvariantStatesAreSafe := by
  intro s h f hstep
  obtain ⟨rest, hread⟩ := step_fault hstep
  exact TxInv.not_unreadable (s := { s with issue := rest }) { h with } hread

/-- Settles O43: no payload, no frame, no upload. -/
theorem resetMeetsTransmitInvariant : Obligations.ResetMeetsTransmitInvariant := by
  have h (p : Params) (q r : Word) (hp : p.wf) : TxInv (State.resetWith p q r) :=
    { params := hp
      payWf := Memory.empty_wf
      payRange := fun _ hc => absurd hc List.not_mem_nil
      payLoaded := fun _ ha => absurd ha (Nat.not_lt_zero _)
      sizeFits := Nat.zero_le _
      built := fun hv => absurd hv Bool.false_ne_true
      chunk := by show (1024 : Word) ≠ 0; decide
      running := fun hu => absurd hu Bool.false_ne_true
      resting := fun _ => by show Status.none ≠ .run; decide
      sentBefore := fun _ => rfl
      sentDuring := fun hs => nomatch hs
      sentAfter := fun hs => nomatch hs
      progress := fun hu => absurd hu Bool.false_ne_true
      progressMax := Nat.zero_le _
      progressOk := fun hs => nomatch hs
      failStage := fun hs => nomatch hs
      lineAHeld := fun hs => nomatch hs
      lineBHeld := fun hs => nomatch hs
      writes := fun _ hw => absurd hw List.not_mem_nil }
  exact ⟨h _ _ _ (by decide), h⟩

/-- Settles O40: the arithmetic of the register, and the two counts over every effect. -/
theorem progressIsHundredOnlyAtTheEnd : Obligations.ProgressIsHundredOnlyAtTheEnd := by
  refine ⟨fun sent size hs hle => ⟨progressOf_eq_hundred hs hle, progressOf_le hle, fun sent' => progressOf_mono hle⟩,
    fun s t h hu hstep => ?_⟩
  obtain ⟨rest, i, e⟩ := step_effect hstep
  exact TxInv.sent_mono (s := { s with issue := rest }) { h with } hu e

/-- Settles O44: what would touch a frame asks for the idle sequencer. -/
theorem nothingChangesAFrameInUse : Obligations.NothingChangesAFrameInUse := by
  intro i s t hs h
  obtain ⟨hpay, hsize, hcksum, hcfg⟩ := (exec_effect h).sameFrame hs
  exact ⟨hpay, hsize, hcksum, hcfg⟩

/-- Settles O45: each trace over every effect. -/
theorem tracesOnlyGrow : Obligations.TracesOnlyGrow := by
  intro i s t h
  have e := exec_effect h
  exact ⟨e.msgs, e.wire, e.params⟩

/-- Settles O46: the effects of each path, field by field. -/
theorem receiveAndTransmitAreApart : Obligations.ReceiveAndTransmitAreApart := by
  intro i s t h
  refine ⟨(exec_effect h).of_receiveSide, fun hi => ?_⟩
  obtain ⟨same, hcrc⟩ := (exec_effect h).of_transmitSide hi
  exact ⟨same.msgs, same.rxPending, same.rxTimer, same.rxQtoReq, same.linkOpen, hcrc⟩

/-- Settles O47: each line over every effect. -/
theorem linesMoveOnlyInTheirStages : Obligations.LinesMoveOnlyInTheirStages := by
  intro i s t h
  exact ⟨(exec_effect h).lineA, (exec_effect h).lineB⟩

end Sys2Proof.Machine
end

section
/-! PROOFS. The source text (30_encoding R64): the model's parser against the layout of a text and the writing of a
word. -/

namespace Sys2Proof.Machine

/-! ## Lines -/

theorem linesOf_line_append : ∀ {l : List Byte}, newline ∉ l → ∀ r, linesOf (l ++ newline :: r) = l :: linesOf r := by
  intro l
  induction l with
  | nil => intro _ r; rfl
  | cons b l ih =>
    intro hb r
    have hne := List.ne_of_not_mem_cons hb
    have hl := List.not_mem_of_not_mem_cons hb
    rw [List.cons_append, linesOf, if_neg (Ne.symm hne), ih hl]

theorem linesOf_line : ∀ {l : List Byte}, newline ∉ l → linesOf l = [l] := by
  intro l
  induction l with
  | nil => intro _; rfl
  | cons b l ih =>
    intro hb
    have hne := List.ne_of_not_mem_cons hb
    have hl := List.not_mem_of_not_mem_cons hb
    rw [linesOf, if_neg (Ne.symm hne), ih hl]

theorem linesOf_textOfLines : ∀ {lines : List (List Byte)}, lines ≠ [] → (∀ l ∈ lines, newline ∉ l) →
    linesOf (textOfLines lines) = lines
  | [], hne, _ => absurd rfl hne
  | [l], _, h => linesOf_line (h l (List.mem_singleton_self l))
  | l :: m :: ls, _, h => by
    have ih := linesOf_textOfLines (List.cons_ne_nil m ls) fun x hx => h x (List.mem_cons_of_mem l hx)
    rw [textOfLines]
    exact (linesOf_line_append (h l List.mem_cons_self) _).trans (congrArg _ ih)

/-! ## Whitespace -/

theorem isSpace_of_mem_lineSpaces : ∀ b ∈ lineSpaces, isSpace b = true := by decide

theorem mem_lineSpaces {b : Byte} (h : isSpace b = true) (hb : b ≠ newline) : b ∈ lineSpaces := by
  simp only [isSpace, Bool.or_eq_true, beq_iff_eq] at h
  simp only [lineSpaces, List.mem_cons, List.not_mem_nil, or_false]
  simp only [newline] at hb
  tauto

theorem newline_not_mem_of_blankLine {l : List Byte} (h : blankLine l) : newline ∉ l := fun hm =>
  absurd (h _ hm) (by decide)

/-- Whitespace around bytes that are none is what trimming removes. -/
theorem trim_around {b m a : List Byte} (hb : ∀ x ∈ b, isSpace x = true) (hm : ∀ x ∈ m, isSpace x = false)
    (ha : ∀ x ∈ a, isSpace x = true) : trim (b ++ m ++ a) = m := by
  have htail : (m ++ a).dropWhile isSpace = m ++ a ∨ m = [] := by
    cases m with
    | nil => exact .inr rfl
    | cons x m => exact .inl (List.dropWhile_cons_of_neg (by rw [hm x List.mem_cons_self]; decide))
  rw [trim, List.append_assoc, List.dropWhile_append_of_pos hb]
  obtain he | rfl := htail
  · rw [he, List.reverse_append, List.dropWhile_append_of_pos (by simpa using ha)]
    have hrev : m.reverse.dropWhile isSpace = m.reverse := by
      cases hr : m.reverse with
      | nil => rfl
      | cons x r =>
        have hx : x ∈ m := List.mem_reverse.1 (by rw [hr]; exact List.mem_cons_self)
        exact List.dropWhile_cons_of_neg (by rw [hm x hx]; decide)
    rw [hrev, List.reverse_reverse]
  · have hnil : a.dropWhile isSpace = [] := List.dropWhile_eq_nil_iff.2 ha
    rw [List.nil_append, hnil]
    rfl

/-- A line is what trimming leaves, with whitespace around it. -/
theorem exists_trim (l : List Byte) :
    ∃ b a, l = b ++ trim l ++ a ∧ (∀ x ∈ b, isSpace x = true) ∧ ∀ x ∈ a, isSpace x = true := by
  refine ⟨l.takeWhile isSpace, (l.dropWhile isSpace).rtakeWhile isSpace, ?_, fun x hx => List.mem_takeWhile_imp hx,
    fun x hx => List.mem_rtakeWhile_imp hx⟩
  have hback : trim l ++ (l.dropWhile isSpace).rtakeWhile isSpace = l.dropWhile isSpace :=
    List.rdropWhile_append_rtakeWhile
  rw [List.append_assoc, hback, List.takeWhile_append_dropWhile]

/-! ## Words -/

/-- A byte is a digit of the table exactly when the model reads it, at the same value. -/
theorem hexDigit_eq_lookup : ∀ b : Byte, hexDigit b = digitValues.lookup b := by
  decide +kernel

theorem lookup_isSome (b : Byte) : (digitValues.lookup b).isSome = true ↔ b ∈ digitValues.map Prod.fst := by
  revert b
  decide +kernel

theorem not_isSpace_of_digit : ∀ b ∈ digitValues.map Prod.fst, isSpace b = false := by decide

/-- The value of a digit; 0 for any other byte. -/
def digitValue (b : Byte) : Nat := (digitValues.lookup b).getD 0

/-- The number that digits make after a number read before them. -/
def numberAfter (acc : Nat) (l : List Byte) : Nat := l.foldl (fun n b => 16 * n + digitValue b) acc

theorem numberOf_eq (l : List Byte) : numberOf l = numberAfter 0 l := rfl

theorem hexValue_eq_some : ∀ {l : List Byte} {acc n : Nat},
    hexValue acc l = some n ↔ (∀ b ∈ l, b ∈ digitValues.map Prod.fst) ∧ n = numberAfter acc l := by
  intro l
  induction l with
  | nil => intro acc n; simp [hexValue, numberAfter, eq_comm]
  | cons b l ih =>
    intro acc n
    have hstep (d : Nat) (hd : hexDigit b = some d) : numberAfter acc (b :: l) = numberAfter (acc * 16 + d) l := by
      rw [hexDigit_eq_lookup] at hd
      rw [numberAfter, List.foldl_cons, digitValue, hd, Nat.mul_comm]
      rfl
    rw [hexValue, List.forall_mem_cons, ← lookup_isSome, ← hexDigit_eq_lookup]
    cases hd : hexDigit b with
    | none => simp
    | some d => rw [hstep d hd]; simp [ih]

/-- The words the model takes are the words of 30_encoding R64. -/
theorem wordOf_eq_some {l : List Byte} {w : Word} :
    wordOf l = some w ↔ (∀ b ∈ l, b ∈ digitValues.map Prod.fst) ∧ numberOf l ≤ 0xFFFFFFFF ∧
      w = BitVec.ofNat 32 (numberOf l) := by
  rw [wordOf, Option.bind_eq_some_iff]
  constructor
  · rintro ⟨n, hn, hw⟩
    obtain ⟨hdigits, rfl⟩ := hexValue_eq_some.1 hn
    split at hw <;> cases hw
    next hle => exact ⟨hdigits, hle, rfl⟩
  · rintro ⟨hdigits, hle, rfl⟩
    exact ⟨numberOf l, hexValue_eq_some.2 ⟨hdigits, rfl⟩, if_pos hle⟩

theorem wordOf_isSome {l : List Byte} (hne : l ≠ []) : (wordOf l).isSome = true ↔ wordText l := by
  rw [Option.isSome_iff_exists]
  constructor
  · rintro ⟨w, hw⟩
    obtain ⟨hdigits, hle, -⟩ := wordOf_eq_some.1 hw
    exact ⟨hne, hdigits, hle⟩
  · rintro ⟨-, hdigits, hle⟩
    exact ⟨_, wordOf_eq_some.2 ⟨hdigits, hle, rfl⟩⟩

/-! ## The three kinds of lines -/

theorem trim_of_blankLine {l : List Byte} (h : blankLine l) : trim l = [] := by
  have ht := trim_around (b := l) (m := []) (a := []) (fun x hx => isSpace_of_mem_lineSpaces x (h x hx))
    (fun _ hx => absurd hx List.not_mem_nil) (fun _ hx => absurd hx List.not_mem_nil)
  simpa using ht

theorem trim_of_wordText {b m a : List Byte} (hb : blankLine b) (hm : wordText m) (ha : blankLine a) :
    trim (b ++ m ++ a) = m := by
  obtain ⟨-, hdigits, -⟩ := hm
  exact trim_around (fun x hx => isSpace_of_mem_lineSpaces x (hb x hx))
    (fun x hx => not_isSpace_of_digit x (hdigits x hx)) (fun x hx => isSpace_of_mem_lineSpaces x (ha x hx))

theorem wordOf_trim_of_wordLine {l : List Byte} (h : wordLine l) :
    trim l ≠ [] ∧ (wordOf (trim l)).isSome = true := by
  obtain ⟨b, m, a, rfl, hb, hm, ha⟩ := h
  rw [trim_of_wordText hb hm ha]
  exact ⟨hm.1, (wordOf_isSome hm.1).2 hm⟩

/-- A line that is neither blank nor a word is bad for the model too. -/
theorem wordOf_trim_of_bad {l : List Byte} (hnl : newline ∉ l) (hblank : ¬ blankLine l) (hword : ¬ wordLine l) :
    trim l ≠ [] ∧ wordOf (trim l) = none := by
  obtain ⟨b, a, hl, hb, ha⟩ := exists_trim l
  have inLine {x : Byte} (hx : x ∈ b ++ trim l ++ a) : x ≠ newline := by
    rintro rfl
    rw [hl] at hnl
    exact hnl hx
  have hb' : blankLine b := fun x hx => mem_lineSpaces (hb x hx) (inLine (by simp [hx]))
  have ha' : blankLine a := fun x hx => mem_lineSpaces (ha x hx) (inLine (by simp [hx]))
  have hne : trim l ≠ [] := by
    intro he
    rw [he, List.append_nil] at hl
    refine hblank fun x hx => ?_
    rw [hl] at hx
    exact (List.mem_append.1 hx).elim (hb' x) (ha' x)
  refine ⟨hne, ?_⟩
  by_contra hsome
  exact hword ⟨b, trim l, a, hl, hb', (wordOf_isSome hne).1 (Option.isSome_iff_ne_none.2 hsome), ha'⟩

/-! ## A text line by line -/

theorem parseLines_blank {l : List Byte} (h : trim l = []) (k : Nat) (ls : List (List Byte)) :
    parseLines k (l :: ls) = parseLines (k + 1) ls := by
  rw [parseLines, if_pos h]

theorem parseLines_bad {l : List Byte} (hne : trim l ≠ []) (h : wordOf (trim l) = none) (k : Nat)
    (ls : List (List Byte)) : parseLines k (l :: ls) = .error k := by
  rw [parseLines, if_neg hne, h]

theorem parseLines_word {l : List Byte} {w : Word} (hne : trim l ≠ []) (h : wordOf (trim l) = some w) (k : Nat)
    (ls : List (List Byte)) :
    parseLines k (l :: ls) = (parseLines (k + 1) ls).map (fun ws => w :: ws) := by
  rw [parseLines, if_neg hne, h]
  cases parseLines (k + 1) ls <;> rfl

/-- Words or whitespace before it, the first bad line gives the error its own number. -/
theorem parseLines_firstBad : ∀ {lines : List (List Byte)} {k : Nat} {l : List Byte} (start : Nat),
    (∀ m ∈ lines, newline ∉ m) → lines[k]? = some l → ¬ blankLine l → ¬ wordLine l →
    (∀ j < k, ∀ m, lines[j]? = some m → blankLine m ∨ wordLine m) → parseLines start lines = .error (start + k) := by
  intro lines
  induction lines with
  | nil => intro k l _ _ hk; cases hk
  | cons m ms ih =>
    intro k l n hnl hk hblank hword hbefore
    cases k with
    | zero =>
      cases hk
      obtain ⟨hne, hnone⟩ := wordOf_trim_of_bad (hnl m List.mem_cons_self) hblank hword
      exact parseLines_bad hne hnone n ms
    | succ k =>
      have hrest : parseLines (n + 1) ms = .error (n + (k + 1)) := by
        rw [ih (n + 1) (fun x hx => hnl x (List.mem_cons_of_mem m hx)) hk hblank hword
          fun j hj x hx => hbefore (j + 1) (Nat.succ_lt_succ hj) x hx, Nat.add_assoc, Nat.add_comm 1]
      obtain hm | hm := hbefore 0 (Nat.succ_pos k) m rfl
      · rw [parseLines_blank (trim_of_blankLine hm), hrest]
      · obtain ⟨hne, hsome⟩ := wordOf_trim_of_wordLine hm
        obtain ⟨w, hw⟩ := Option.isSome_iff_exists.1 hsome
        rw [parseLines_word hne hw, hrest]
        rfl

theorem parseLines_allBlank : ∀ {lines : List (List Byte)} (k : Nat), (∀ l ∈ lines, blankLine l) →
    parseLines k lines = .ok [] := by
  intro lines
  induction lines with
  | nil => intro k _; rfl
  | cons l ls ih =>
    intro k h
    rw [parseLines_blank (trim_of_blankLine (h l List.mem_cons_self))]
    exact ih (k + 1) fun x hx => h x (List.mem_cons_of_mem l hx)

/-! ## A number in digits -/

theorem lookup_hexChar : ∀ d < 16, ∀ upper, digitValues.lookup (hexChar upper d) = some d := by decide

theorem hexChar_mem_digits {d : Nat} (hd : d < 16) (upper : Bool) : hexChar upper d ∈ digitValues.map Prod.fst := by
  rw [← lookup_isSome, lookup_hexChar d hd upper]; rfl

theorem hexDigits_mem_digits : ∀ (cases : List Bool) (n : Nat), ∀ b ∈ hexDigits cases n,
    b ∈ digitValues.map Prod.fst := by
  intro cases
  induction cases with
  | nil => intro n b hb; cases hb
  | cons upper rest ih =>
    intro n b hb
    obtain rfl | hb := List.mem_cons.1 hb
    · exact hexChar_mem_digits (Nat.mod_lt _ (by decide)) upper
    · exact ih n b hb

/-- Reading the digits of a number back, modulo what their count can hold. -/
theorem numberAfter_hexDigits : ∀ (cases : List Bool) (n acc : Nat),
    numberAfter acc (hexDigits cases n) = acc * 16 ^ cases.length + n % 16 ^ cases.length := by
  intro cases
  induction cases with
  | nil => intro n acc; simp [hexDigits, numberAfter, Nat.mod_one]
  | cons upper rest ih =>
    intro n acc
    have hdigit : digitValue (hexChar upper (n / 16 ^ rest.length % 16)) = n / 16 ^ rest.length % 16 := by
      rw [digitValue, lookup_hexChar _ (Nat.mod_lt _ (by decide)) upper]; rfl
    rw [hexDigits, numberAfter, List.foldl_cons, hdigit]
    calc numberAfter (16 * acc + n / 16 ^ rest.length % 16) (hexDigits rest n)
        = (16 * acc + n / 16 ^ rest.length % 16) * 16 ^ rest.length + n % 16 ^ rest.length := ih n _
      _ = acc * 16 ^ (rest.length + 1) + n % 16 ^ (rest.length + 1) := by
        rw [Nat.mod_pow_succ]; ring

theorem hexDigits_length (cases : List Bool) (n : Nat) : (hexDigits cases n).length = cases.length := by
  induction cases with
  | nil => rfl
  | cons upper rest ih => rw [hexDigits, List.length_cons, ih, List.length_cons]

/-- The word of a line, in any number of digits it fits. -/
theorem wordOf_hexDigits {cases : List Bool} {w : Word} (hne : cases ≠ []) (hw : w.toNat < 16 ^ cases.length) :
    wordText (hexDigits cases w.toNat) ∧ wordOf (hexDigits cases w.toNat) = some w := by
  have hnumber : numberOf (hexDigits cases w.toNat) = w.toNat := by
    rw [numberOf_eq, numberAfter_hexDigits, Nat.mod_eq_of_lt hw, Nat.zero_mul, Nat.zero_add]
  have hdigits := hexDigits_mem_digits cases w.toNat
  have hle : numberOf (hexDigits cases w.toNat) ≤ 0xFFFFFFFF := by
    rw [hnumber]; exact Nat.le_of_lt_succ w.isLt
  have hnil : hexDigits cases w.toNat ≠ [] := fun he => hne (by
    rw [← List.length_eq_zero_iff, ← hexDigits_length cases w.toNat, he]; rfl)
  refine ⟨⟨hnil, hdigits, hle⟩, wordOf_eq_some.2 ⟨hdigits, hle, ?_⟩⟩
  rw [hnumber, BitVec.ofNat_toNat, BitVec.setWidth_eq]

/-! ## A text of laid-out lines -/

theorem SourceLine.trim_render_blank {l : SourceLine} (h : l.ok) (hw : l.word = none) : trim l.render = [] := by
  obtain ⟨hb, ha, -⟩ := h
  rw [SourceLine.render, hw]
  refine trim_of_blankLine fun x hx => ?_
  rw [List.append_nil] at hx
  exact (List.mem_append.1 hx).elim (hb x) (ha x)

theorem SourceLine.trim_render_word {l : SourceLine} (h : l.ok) {w : Word} (hw : l.word = some w) :
    trim l.render ≠ [] ∧ wordOf (trim l.render) = some w := by
  obtain ⟨hb, ha, hcases⟩ := h
  obtain ⟨hne, hlt⟩ := hcases w hw
  obtain ⟨htext, hword⟩ := wordOf_hexDigits hne hlt
  have htrim : trim l.render = hexDigits l.cases w.toNat := by
    rw [SourceLine.render, hw]; exact trim_of_wordText hb htext ha
  rw [htrim]
  exact ⟨htext.1, hword⟩

theorem SourceLine.newline_not_mem_render {l : SourceLine} (h : l.ok) : newline ∉ l.render := by
  obtain ⟨hb, ha, -⟩ := h
  have hdigit : newline ∉ digitValues.map Prod.fst := by decide
  intro hm
  rw [SourceLine.render, List.mem_append, List.mem_append] at hm
  obtain (hm | hm) | hm := hm
  · exact newline_not_mem_of_blankLine hb hm
  · cases hw : l.word with
    | none => rw [hw] at hm; cases hm
    | some w => rw [hw] at hm; exact hdigit (hexDigits_mem_digits _ _ _ hm)
  · exact newline_not_mem_of_blankLine ha hm

theorem parseLines_render : ∀ {ls : List SourceLine} (k : Nat), (∀ l ∈ ls, l.ok) →
    parseLines k (ls.map SourceLine.render) = .ok (textWords ls) := by
  intro ls
  induction ls with
  | nil => intro k _; rfl
  | cons l ls ih =>
    intro k h
    have hl := h l List.mem_cons_self
    have hrest := ih (k + 1) fun x hx => h x (List.mem_cons_of_mem l hx)
    rw [List.map_cons, textWords, List.filterMap_cons]
    cases hw : l.word with
    | none => rw [parseLines_blank (SourceLine.trim_render_blank hl hw), hrest]; rfl
    | some w =>
      obtain ⟨hne, hword⟩ := SourceLine.trim_render_word hl hw
      rw [parseLines_word hne hword, hrest]
      rfl

/-- The words of a text come back, however it is laid out (41_frame_build R119 item 5). -/
theorem parseText_renderText {ls : List SourceLine} (hne : ls ≠ []) (h : ∀ l ∈ ls, l.ok) :
    parseText (renderText ls) = .ok (textWords ls) := by
  have hlines : linesOf (renderText ls) = ls.map SourceLine.render := by
    refine linesOf_textOfLines (fun he => hne (List.map_eq_nil_iff.1 he)) fun x hx => ?_
    obtain ⟨l, hl, rfl⟩ := List.mem_map.1 hx
    exact SourceLine.newline_not_mem_render (h l hl)
  rw [parseText, hlines, parseLines_render 1 h]

theorem ne_nil_of_textWords {ls : List SourceLine} (h : textWords ls ≠ []) : ls ≠ [] := by
  rintro rfl
  exact h rfl

end Sys2Proof.Machine
end

section
/-! PROOFS. The frame formatter (41_frame_build): `IMG.PARSE`, `FRM.BUILD`, and the frame they make. -/

namespace Sys2Proof.Machine

variable {s t : State}

/-! ## `IMG.PARSE` of a text, branch by branch -/

theorem exec_imgParse_unreadable (hs : s.txStage = .idle) :
    exec (.imgParse .unreadable) s = failBuild .ioError .ioError s := if_neg (not_not.2 hs)

theorem exec_imgParse_text (hs : s.txStage = .idle) (x : List Byte) :
    exec (.imgParse (.text x)) s = parseImage x s := if_neg (not_not.2 hs)

theorem parseImage_error {x : List Byte} {k : Nat} (h : parseText x = .error k) :
    parseImage x s = failBuild .parseError (.parseError k) s := by
  rw [parseImage, h]

theorem parseImage_ok {x : List Byte} {ws : List Word} (h : parseText x = .ok ws) :
    parseImage x s =
      if ws = [] then failBuild .emptyImageError .emptyImageError s
      else if s.params.payMax < 4 * ws.length then .refused .payloadTooLong
      else finish (s.loadPayload (ws.flatMap le32)) := by
  rw [parseImage, h]

theorem parseImage_fits {x : List Byte} {ws : List Word} (h : parseText x = .ok ws) (hne : ws ≠ [])
    (hlen : 4 * ws.length ≤ s.params.payMax) :
    parseImage x s = .next ((s.loadPayload (ws.flatMap le32)).reply .done) := by
  rw [parseImage_ok h, if_neg hne, if_neg (Nat.not_lt.2 hlen), finish]

/-! ## `FRM.BUILD`, branch by branch -/

theorem exec_frmBuild_empty (hs : s.txStage = .idle) (hz : s.frmSize = 0) :
    exec .frmBuild s = failBuild .emptyImageError .emptyImageError s := by
  show execFrmBuild s = _
  rw [execFrmBuild, if_neg (not_not.2 hs), if_pos hz]

theorem exec_frmBuild_read (hs : s.txStage = .idle) (hne : s.frmSize ≠ 0) {payload : List Byte}
    (h : s.payRead 0 s.frmSize.toNat = .ok payload) :
    exec .frmBuild s = .next ((s.sealFrame payload).reply .done) := by
  show execFrmBuild s = _
  rw [execFrmBuild, if_neg (not_not.2 hs), if_neg hne, h]
  rfl

/-- A frame comes only from a payload that was read. -/
theorem exec_frmBuild_valid (h : exec .frmBuild s = .next t) (hv : t.frmValid = true) :
    s.frmSize ≠ 0 ∧ ∃ payload, s.payRead 0 s.frmSize.toNat = .ok payload ∧ t = (s.sealFrame payload).reply .done := by
  by_cases hs : s.txStage = .idle
  · by_cases hz : s.frmSize = 0
    · rw [exec_frmBuild_empty hs hz] at h
      cases h
      exact absurd hv Bool.false_ne_true
    · refine ⟨hz, ?_⟩
      cases hread : s.payRead 0 s.frmSize.toNat with
      | ok payload =>
        rw [exec_frmBuild_read hs hz hread] at h
        cases h
        exact ⟨payload, rfl, rfl⟩
      | error f =>
        have hfault : exec .frmBuild s = .fault f := by
          show execFrmBuild s = _
          rw [execFrmBuild, if_neg (not_not.2 hs), if_neg hz, hread]
        rw [hfault] at h
        cases h
  · rw [exec_frmBuild_busy hs] at h
    cases h

theorem State.payRead_congr {u : State} (hpay : s.pay = u.pay) (hparams : s.params = u.params) (a n : Nat) :
    s.payRead a n = u.payRead a n := by
  rw [State.payRead, State.payRead, hpay, hparams]

/-- The frame of a state that holds one: its fields round the payload. -/
theorem State.frame_of_read (hv : s.frmValid = true) {payload : List Byte}
    (h : s.pay.readRun 0 s.frmSize.toNat = some payload) :
    s.frame = some (frameOf s.frmSize s.frmCksum payload) := by
  rw [State.frame, if_pos hv, h]; rfl

theorem State.sealFrame_frame {payload : List Byte} (h : s.payRead 0 s.frmSize.toNat = .ok payload) (r : Report) :
    ((s.sealFrame payload).reply r).frame =
      some (frameOf s.frmSize (checksum s.params.polyR (le32 s.frmSize ++ payload)) payload) :=
  State.frame_of_read (s := (s.sealFrame payload).reply r) rfl (State.payRead_ok.1 h).2

theorem frameOf_length (size cksum : Word) (payload : List Byte) :
    (frameOf size cksum payload).length = 12 + payload.length := by
  simp only [frameOf, List.length_append, be32_length, le32_length]
  omega

/-! ## The state between the two halves of `build` -/

/-- A payload that has just been loaded is read back. -/
theorem State.loadPayload_read (hw : s.pay.wf) (hp : s.params.wf) {bytes : List Byte}
    (hlen : bytes.length ≤ s.params.payMax) :
    (s.loadPayload bytes).frmSize.toNat = bytes.length ∧
      (s.loadPayload bytes).payRead 0 (s.loadPayload bytes).frmSize.toNat = .ok bytes := by
  have hsize := State.loadPayload_frmSize_toNat hp hlen
  refine ⟨hsize, State.payRead_ok.2 ⟨?_, ?_⟩⟩
  · rw [hsize, Nat.zero_add]; exact hlen
  · rw [hsize]; exact Memory.readRun_writeRun hw 0 bytes

/-- `build` goes on when the parser has raised nothing (41_frame_build R115). -/
theorem build_of_next {source : Source} (h : exec (.imgParse source) s = .next t) (hr : t.hasRaised = false) :
    build source s = exec .frmBuild t := by
  rw [build, h]
  exact if_neg (Bool.not_eq_true _ ▸ hr)

/-! ## The obligations -/

/-- Settles O10: the parser gives the words back, and loading puts their bytes where they belong. -/
theorem imgParseReadsTheWords : Obligations.ImgParseReadsTheWords := by
  intro s ls hs hw hp hok hne hlen
  have hparse := parseText_renderText (ne_nil_of_textWords hne) hok
  refine ⟨_, (exec_imgParse_text hs _).trans (parseImage_fits hparse hne hlen), ?_, fun a => ?_⟩
  · rw [State.loadPayload, flatMap_le32_length]; rfl
  · rw [State.reply_pay, State.loadPayload_pay_read hw, flatMap_le32_length]

/-- Settles O11: the parser stops at the first bad line, finds nothing in blank ones, and takes the words of R64. -/
theorem imgParseRaisesItsErrors : Obligations.ImgParseRaisesItsErrors := by
  refine ⟨fun s hs => ⟨exec_imgParse_unreadable hs, fun lines k l hnl hk hblank hword hbefore => ?bad,
    fun lines hall => ?blank, fun ls hok hlen => ?tooLong⟩, fun l hne => ⟨wordOf_isSome hne, fun w hw => ?value⟩⟩
  case bad =>
    have hne : lines ≠ [] := by rintro rfl; cases hk
    have hparse : parseText (textOfLines lines) = .error (k + 1) := by
      rw [parseText, linesOf_textOfLines hne hnl, parseLines_firstBad 1 hnl hk hblank hword hbefore, Nat.add_comm]
    rw [exec_imgParse_text hs, parseImage_error hparse]
    rfl
  case blank =>
    have hparse : parseText (textOfLines lines) = .ok [] := by
      by_cases hne : lines = []
      · rw [hne]; rfl
      · rw [parseText, linesOf_textOfLines hne fun l hl => newline_not_mem_of_blankLine (hall l hl)]
        exact parseLines_allBlank 1 hall
    rw [exec_imgParse_text hs, parseImage_ok hparse, if_pos rfl]
    rfl
  case tooLong =>
    have hne : textWords ls ≠ [] := by
      intro he
      rw [he] at hlen
      exact Nat.not_lt_zero _ hlen
    rw [exec_imgParse_text hs, parseImage_ok (parseText_renderText (ne_nil_of_textWords hne) hok), if_neg hne,
      if_pos hlen]
  case value =>
    obtain ⟨-, hle, rfl⟩ := wordOf_eq_some.1 hw
    rw [BitVec.toNat_ofNat, Nat.mod_eq_of_lt (Nat.lt_succ_of_le hle)]

/-- Settles O13: the three branches of the operation, the last with the payload read. -/
theorem frmBuildSumsSizeAndPayload : Obligations.FrmBuildSumsSizeAndPayload := by
  intro s
  refine ⟨exec_frmBuild_busy, exec_frmBuild_empty, fun payload hs hne hmax hw hlen hread => ?_⟩
  have hrun : s.payRead 0 s.frmSize.toNat = .ok payload :=
    State.payRead_ok.2 ⟨(Nat.zero_add _).trans_le hmax, (Memory.readRun_eq_some hw _ _ _).2
      ⟨hlen, fun k hk => by rw [Nat.zero_add]; exact hread k (by rw [hlen]; exact hk)⟩⟩
  rw [exec_frmBuild_read hs hne hrun, State.sealFrame, checksum, not_eq_xor_ones]
  rfl

/-- Settles O14: what is summed is the payload, its size and `POLY_R`, and these are the same. -/
theorem rebuildingGivesTheSameFrame : Obligations.RebuildingGivesTheSameFrame := by
  intro s t u h hv hpay hsize hparams hu
  obtain ⟨hne, payload, hread, rfl⟩ := exec_frmBuild_valid h hv
  have hpay : s.pay = u.pay := hpay
  have hsize : s.frmSize = u.frmSize := hsize
  have hparams : s.params = u.params := hparams
  have hread' : u.payRead 0 u.frmSize.toNat = .ok payload := by
    rw [← hsize, ← State.payRead_congr hpay hparams]; exact hread
  refine ⟨_, exec_frmBuild_read hu (hsize ▸ hne) hread', rfl, ?_, ?_⟩
  · rw [State.reply_frmCksum, State.reply_frmCksum, State.sealFrame_frmCksum, State.sealFrame_frmCksum, hsize, hparams]
  · rw [State.sealFrame_frame hread', State.sealFrame_frame hread, hsize, hparams]

/-- Settles O15: the first half raises nothing, so the second builds the frame of what was loaded. -/
theorem buildMakesAFrame : Obligations.BuildMakesAFrame := by
  intro s ls hs hw hp hok hne hlen
  have hlength := flatMap_le32_length (textWords ls)
  have hload : exec (.imgParse (.text (renderText ls))) s =
      .next ((s.loadPayload ((textWords ls).flatMap le32)).reply .done) :=
    (exec_imgParse_text hs _).trans (parseImage_fits (parseText_renderText (ne_nil_of_textWords hne) hok) hne hlen)
  obtain ⟨hsize, hread⟩ :=
    State.loadPayload_read hw hp (bytes := (textWords ls).flatMap le32) (by rw [hlength]; exact hlen)
  have hpos : 0 < (textWords ls).length := List.length_pos_of_ne_nil hne
  have hsizeNe : (s.loadPayload ((textWords ls).flatMap le32)).frmSize ≠ 0 := by
    intro hz
    rw [hz, hlength] at hsize
    exact absurd hsize (by simp; omega)
  have hbuild := exec_frmBuild_read (s := (s.loadPayload ((textWords ls).flatMap le32)).reply .done) hs hsizeNe hread
  exact ⟨_, (build_of_next hload rfl).trans hbuild, rfl, hsize.trans hlength,
    ⟨hsizeNe, _, (State.payRead_ok.1 hread).2, rfl⟩,
    State.sealFrame_frame (s := (s.loadPayload ((textWords ls).flatMap le32)).reply .done) hread .done⟩

/-- Settles O16: the fields of a frame stand at fixed places from its two ends. -/
theorem builtFrameChecksItself : Obligations.BuiltFrameChecksItself := by
  intro s h hv
  obtain ⟨-, payload, hrun, hcksum⟩ := h.built hv
  have hlen : payload.length = s.frmSize.toNat := ((Memory.readRun_eq_some h.payWf _ _ _).1 hrun).1
  have hflen := frameOf_length s.frmSize s.frmCksum payload
  have hsizeField : BitVec.ofNat 32 (12 + payload.length - 12) = s.frmSize := by
    rw [Nat.add_sub_cancel_left, hlen, BitVec.ofNat_toNat, BitVec.setWidth_eq]
  have hmiddle : ((frameOf s.frmSize s.frmCksum payload).drop 4).take (12 + payload.length - 8) =
      le32 s.frmSize ++ payload := by
    have hcount : 12 + payload.length - 8 = (le32 s.frmSize ++ payload).length := by
      rw [List.length_append, le32_length]; omega
    rw [hcount]
    exact List.take_left
  have hend : (frameOf s.frmSize s.frmCksum payload).drop (12 + payload.length - 4) = le32 s.frmCksum := by
    have hcount : 12 + payload.length - 4 = (be32 Config.magic ++ le32 s.frmSize ++ payload).length := by
      rw [List.length_append, List.length_append, be32_length, le32_length]; omega
    rw [hcount]
    exact List.drop_left
  refine ⟨_, State.frame_of_read hv hrun, hflen.trans (by rw [hlen]), rfl, ?_, ?_⟩
  · rw [hflen, hsizeField]; rfl
  · rw [hflen, hmiddle, hend, hcksum]

end Sys2Proof.Machine
end

section
/-! PROOFS. A whole upload (43_transmit R178): the stages one after the other, each answered `Ok`. -/

namespace Sys2Proof.Machine

variable {s u v w : State}

/-! ## Chunks and written bytes -/

theorem chunksOf_nil (c fuel : Nat) : chunksOf c fuel [] = [] := by
  cases fuel <;> rfl

theorem chunksOf_cons {c fuel : Nat} {p : List Byte} (hp : p ≠ []) :
    chunksOf c (fuel + 1) p = p.take c :: chunksOf c fuel (p.drop c) := if_neg hp

theorem chunksOf_flatten {c : Nat} (hc : 0 < c) : ∀ {fuel : Nat} {p : List Byte}, p.length ≤ fuel →
    (chunksOf c fuel p).flatten = p := by
  intro fuel
  induction fuel with
  | zero =>
    intro p hp
    rw [List.length_eq_zero_iff.1 (Nat.le_zero.1 hp)]
    rfl
  | succ fuel ih =>
    intro p hp
    by_cases hne : p = []
    · rw [hne]; rfl
    · rw [chunksOf_cons hne, List.flatten_cons, ih (by rw [List.length_drop]; omega), List.take_append_drop]

theorem chunksOf_length_le (c : Nat) : ∀ (fuel : Nat) (p : List Byte), (chunksOf c fuel p).length ≤ fuel := by
  intro fuel
  induction fuel with
  | zero => intro p; exact Nat.le_refl 0
  | succ fuel ih =>
    intro p
    by_cases hne : p = []
    · rw [hne]; exact Nat.zero_le _
    · rw [chunksOf_cons hne, List.length_cons]; exact Nat.succ_le_succ (ih _)

theorem writtenBytes_append (es fs : List WireEvent) :
    writtenBytes (es ++ fs) = writtenBytes es ++ writtenBytes fs := by
  induction es with
  | nil => rfl
  | cons e es ih => cases e <;> simp [writtenBytes, ih]

theorem writtenBytes_writes (chunks : List (List Byte)) :
    writtenBytes (chunks.map .write) = chunks.flatten := by
  induction chunks with
  | nil => rfl
  | cons c cs ih => rw [List.map_cons, writtenBytes, ih, List.flatten_cons]

theorem writtenBytes_uploadTrace (r : Bool) (hc : s.cfgChunk ≠ 0) (payload : List Byte) :
    writtenBytes (uploadTrace r s payload) = frameOf s.frmSize s.frmCksum payload := by
  have hpos := BitVec.toNat_pos_of_ne_zero hc
  have hreset : writtenBytes (if r then [.line .a .active, .wait .tDown s.cfgTDown, .line .a .inactive,
      .wait .tSettle s.cfgTSettle] else []) = [] := by cases r <;> rfl
  have hhead : writtenBytes [.write [0xDE, 0xAD, 0xBE, 0xEF], .wait .tGap s.cfgTGap, .write (le32 s.frmSize),
      .wait .tGap s.cfgTGap] = be32 Config.magic ++ le32 s.frmSize := rfl
  have hlast : writtenBytes [.write (le32 s.frmCksum)] = le32 s.frmCksum := List.append_nil _
  rw [uploadTrace, writtenBytes_append, writtenBytes_append, writtenBytes_append, hreset, hhead, hlast,
    writtenBytes_writes, payloadChunks, chunksOf_flatten hpos (Nat.le_refl _), List.nil_append, frameOf]

/-! ## Steps of the sequencer -/

/-- `k` steps of the sequencer lead from one state to another. -/
def RunsTo (k : Nat) (u v : State) : Prop := ∀ fuel, stepUntilIdle (fuel + k) u = stepUntilIdle fuel v

theorem RunsTo.refl (u : State) : RunsTo 0 u u := fun _ => rfl

theorem RunsTo.step {k : Nat} (hs : u.txStage ≠ .idle) (h : exec .txStep u = .next v) (hr : RunsTo k v w) :
    RunsTo (k + 1) u w := by
  intro fuel
  rw [← Nat.add_assoc, stepUntilIdle, if_neg hs, h]
  exact hr fuel

theorem RunsTo.trans {j k : Nat} (huv : RunsTo j u v) (hvw : RunsTo k v w) : RunsTo (k + j) u w := by
  intro fuel
  rw [← Nat.add_assoc, huv, hvw]

theorem stepUntilIdle_idle (hs : u.txStage = .idle) (fuel : Nat) : stepUntilIdle fuel u = .next u := by
  cases fuel with
  | zero => rfl
  | succ fuel => rw [stepUntilIdle, if_pos hs]

/-! ## An upload under way -/

/-- `u` is in `stage` of an upload begun at `s`: `events` are out, `answers` stand ready, `n` payload bytes are sent,
and frame, configuration and messages are as at the start. -/
structure Sending (s u : State) (stage : Stage) (events : List WireEvent) (answers : List DevAnswer) (n : Nat) :
    Prop where
  inv : TxInv u
  stage : u.txStage = stage
  wire : u.wire = s.wire ++ events
  answers : u.devAnswers = answers
  sent : u.txSent.toNat = n
  linkOpen : u.linkOpen = true
  err : u.txErr = .none
  msgs : u.msgs = s.msgs
  same : SameFrame s u

section Stages

variable {st : Stage} {events : List WireEvent} {answers : List DevAnswer} {a : DevAnswer} {n : Nat}

/-- A stage that asked DEV and sent no payload. -/
theorem Sending.asked (h : Sending s u st events (a :: answers) n) {es : List WireEvent} {st' : Stage} {level : Level}
    (hx : exec .txStep u =
      .next { u.answeredWith es with lineA := level, txStage := st', report := .done }) :
    Sending s { u.answeredWith es with lineA := level, txStage := st', report := .done } st' (events ++ es) answers
      n where
  inv := h.inv.effect (exec_effect hx)
  stage := rfl
  wire := by rw [← List.append_assoc, ← h.wire]; rfl
  answers := congrArg List.tail h.answers
  sent := h.sent
  linkOpen := h.linkOpen
  err := h.err
  msgs := h.msgs
  same := { h.same with }

/-- A gap. -/
theorem Sending.waited (h : Sending s u st events answers n) {es : List WireEvent} {st' : Stage}
    (hx : exec .txStep u = .next { u with wire := u.wire ++ es, txStage := st', report := .done }) :
    Sending s { u with wire := u.wire ++ es, txStage := st', report := .done } st' (events ++ es) answers n where
  inv := h.inv.effect (exec_effect hx)
  stage := rfl
  wire := by rw [← List.append_assoc, ← h.wire]
  answers := h.answers
  sent := h.sent
  linkOpen := h.linkOpen
  err := h.err
  msgs := h.msgs
  same := { h.same with }

theorem Sending.busy (h : Sending s u st events answers n) (hst : st ≠ .idle) : u.txStage ≠ .idle := by
  rw [h.stage]; exact hst

/-- The reset pulse, 43_transmit R161 and R162. -/
theorem Sending.resetPulse (h : Sending s u .rstLow events (.ok :: .ok :: answers) n) :
    ∃ v, RunsTo 2 u v ∧ Sending s v .magic (events ++ [.line .a .active, .wait .tDown s.cfgTDown, .line .a .inactive,
      .wait .tSettle s.cfgTSettle]) answers n := by
  have h1 := (stageRstLowAssertsLineA u .txStep (.inl rfl) h.stage).1 h.linkOpen (State.answer_cons h.answers)
  have s1 := h.asked h1
  have h2 := (stageRstSettleReleasesLineA _ .txStep (.inl rfl) s1.stage).1 s1.linkOpen (State.answer_cons s1.answers)
  have s2 := s1.asked h2
  have hdown : u.cfgTDown = s.cfgTDown := h.same.cfg .tDown
  have hsettle : u.cfgTSettle = s.cfgTSettle := h.same.cfg .tSettle
  refine ⟨_, .step (h.busy (by decide)) h1 (.step (s1.busy (by decide)) h2 (.refl _)), ?_⟩
  rw [List.append_assoc] at s2
  rw [← hdown, ← hsettle]
  exact s2

/-- Magic, gap, size, gap: 43_transmit R163 to R166. -/
theorem Sending.head (h : Sending s u .magic events (.ok :: .ok :: answers) n) :
    ∃ v, RunsTo 4 u v ∧ Sending s v .payload (events ++ [.write [0xDE, 0xAD, 0xBE, 0xEF], .wait .tGap s.cfgTGap,
      .write (le32 s.frmSize), .wait .tGap s.cfgTGap]) answers n := by
  have h1 := (stageMagicWritesTheMagic u .txStep (.inl rfl) h.stage).1 h.linkOpen (State.answer_cons h.answers)
  have s1 := h.asked h1
  have h2 := (gapStagesWait _ .txStep).1 (.inl rfl) s1.stage
  have s2 := s1.waited h2
  have h3 := (stageSizeWritesTheSize _ .txStep (.inl rfl) s2.stage).1 s2.linkOpen (State.answer_cons s2.answers)
  have s3 := s2.asked h3
  have h4 := (gapStagesWait _ .txStep).2 (.inl rfl) s3.stage
  have s4 := s3.waited h4
  have hgap : u.cfgTGap = s.cfgTGap := h.same.cfg .tGap
  refine ⟨_, .step (h.busy (by decide)) h1 (.step (s1.busy (by decide)) h2 (.step (s2.busy (by decide)) h3
    (.step (s3.busy (by decide)) h4 (.refl _)))), ?_⟩
  simp only [List.append_assoc] at s4
  rw [← hgap, ← h.same.frmSize]
  exact s4

theorem Sending.payload_read {payload : List Byte} (hpay : s.pay.readRun 0 s.frmSize.toNat = some payload)
    (h : Sending s u st events answers n) :
    payload.length = u.frmSize.toNat ∧ ∀ k < u.frmSize.toNat, u.pay.read k = payload[k]? := by
  rw [← h.same.pay, ← h.same.frmSize] at hpay
  simpa using (Memory.readRun_eq_some h.inv.payWf _ _ _).1 hpay

theorem Sending.sent_lt {payload : List Byte} (hpay : s.pay.readRun 0 s.frmSize.toNat = some payload)
    (h : Sending s u .payload events answers n) : n < payload.length := by
  rw [(h.payload_read hpay).1, ← h.sent]; exact h.inv.sentDuring h.stage

/-- One payload chunk: 43_transmit R167. -/
theorem Sending.chunk {payload : List Byte} (hpay : s.pay.readRun 0 s.frmSize.toNat = some payload)
    (h : Sending s u .payload events (.ok :: answers) n) :
    ∃ v, exec .txStep u = .next v ∧
      Sending s v (if payload.length ≤ n + s.cfgChunk.toNat then .cksum else .payload)
        (events ++ [.write ((payload.drop n).take s.cfgChunk.toNat)]) answers
        (min (n + s.cfgChunk.toNat) payload.length) := by
  have hchunk : u.cfgChunk = s.cfgChunk := h.same.cfg .chunk
  obtain ⟨hlen, hread⟩ := h.payload_read hpay
  have hlt := h.sent_lt hpay
  have hbytes : ((payload.drop n).take s.cfgChunk.toNat).length = u.chunkLength := by
    rw [List.length_take, List.length_drop, State.chunkLength, hchunk, h.sent, hlen]
  have hcells : ∀ k < u.chunkLength,
      u.pay.read (u.txSent.toNat + k) = ((payload.drop n).take s.cfgChunk.toNat)[k]? := by
    intro k hk
    rw [State.chunkLength, h.sent, hchunk] at hk
    rw [h.sent, hread (n + k) (by omega), List.getElem?_take_of_lt (by omega), List.getElem?_drop]
  obtain ⟨hok, -⟩ := stagePayloadWritesAChunk u .txStep u.chunkLength _ (.inl rfl) h.stage h.inv.payWf h.inv.sizeFits
    h.inv.chunk (h.inv.sentDuring h.stage) rfl hbytes hcells
  obtain ⟨thr, eta, hx⟩ := hok h.linkOpen (State.answer_cons h.answers)
  have hcount : n + u.chunkLength = min (n + s.cfgChunk.toNat) payload.length := by
    rw [State.chunkLength, h.sent, hchunk, ← hlen]; omega
  have hall : (u.txSent.toNat + u.chunkLength = u.frmSize.toNat) = (payload.length ≤ n + s.cfgChunk.toNat) := by
    rw [h.sent, ← hlen, hcount]
    exact propext (by omega)
  refine ⟨_, hx, ?_⟩
  exact {
    inv := h.inv.effect (exec_effect hx)
    stage := by simp only [hall]
    wire := by rw [← List.append_assoc, ← h.wire]; rfl
    answers := congrArg List.tail h.answers
    sent := by
      show (u.txSent + BitVec.ofNat 32 u.chunkLength).toNat = _
      have hlt := u.frmSize.isLt
      have hle := u.chunkLength_le
      have hsent := (h.inv.sentDuring h.stage).le
      rw [← hcount, ← h.sent, ← State.chunkSent_txSent_toNat hsent, BitVec.ofNat_add, BitVec.ofNat_toNat,
        BitVec.setWidth_eq]
    linkOpen := h.linkOpen
    err := h.err
    msgs := h.msgs
    same := { h.same with } }

/-- All chunks, each one question: the induction is on what is left of the payload. -/
theorem Sending.payload {payload : List Byte} (hpay : s.pay.readRun 0 s.frmSize.toNat = some payload) :
    ∀ (fuel : Nat) {u : State} {n : Nat} {events : List WireEvent}, payload.length ≤ n + fuel →
      Sending s u .payload events
        (List.replicate (chunksOf s.cfgChunk.toNat fuel (payload.drop n)).length .ok ++ .ok :: answers) n →
      ∃ v, RunsTo (chunksOf s.cfgChunk.toNat fuel (payload.drop n)).length u v ∧
        Sending s v .cksum (events ++ (chunksOf s.cfgChunk.toNat fuel (payload.drop n)).map .write) (.ok :: answers)
          payload.length := by
  intro fuel
  induction fuel with
  | zero =>
    intro u n events hle h
    exact absurd (h.sent_lt hpay) (by omega)
  | succ fuel ih =>
    intro u n events hle h
    have hlt := h.sent_lt hpay
    have hne : payload.drop n ≠ [] := fun he => by
      rw [List.drop_eq_nil_iff] at he
      omega
    rw [chunksOf_cons hne, List.length_cons, List.replicate_succ, List.cons_append, List.drop_drop] at h
    rw [chunksOf_cons hne, List.length_cons, List.map_cons, List.drop_drop]
    have hbusy := h.busy (by decide)
    have hchunk : u.cfgChunk = s.cfgChunk := h.same.cfg .chunk
    have hpos : 0 < s.cfgChunk.toNat := BitVec.toNat_pos_of_ne_zero (hchunk ▸ h.inv.chunk)
    obtain ⟨v, hx, hv⟩ := h.chunk hpay
    by_cases hall : payload.length ≤ n + s.cfgChunk.toNat
    · rw [if_pos hall, Nat.min_eq_right hall, List.drop_eq_nil_of_le hall, chunksOf_nil] at hv
      rw [List.drop_eq_nil_of_le hall, chunksOf_nil]
      exact ⟨v, .step hbusy hx (.refl v), hv⟩
    · rw [if_neg hall, Nat.min_eq_left (by omega)] at hv
      obtain ⟨w, hrun, hw⟩ := ih (by omega) hv
      rw [List.append_assoc] at hw
      exact ⟨w, .step hbusy hx hrun, hw⟩

/-- The last stage: the upload is complete, and all that was sent is out (43_transmit R168, R169). -/
theorem Sending.finish {answers : List DevAnswer} (h : Sending s u .cksum events (.ok :: answers) n) :
    ∃ t, exec .txStep u = .next t ∧ TxInv t ∧ t.wire = s.wire ++ (events ++ [.write (le32 s.frmCksum)]) ∧
      t.txStage = .idle ∧ t.txStatus = .ok ∧ t.txSent = s.frmSize ∧ t.frmValid = false ∧ t.txErr = .none ∧
      t.devAnswers = answers ∧ t.pay = s.pay ∧ t.frmSize = s.frmSize ∧ t.msgs = s.msgs ∧ t.linkOpen = true := by
  have hx := (stageCksumCompletes u .txStep (.inl rfl) h.stage).1 h.linkOpen (State.answer_cons h.answers)
  refine ⟨_, hx, h.inv.effect (exec_effect hx), ?_, rfl, rfl, (h.inv.sentAfter h.stage).trans h.same.frmSize, rfl,
    h.err, congrArg List.tail h.answers, h.same.pay, h.same.frmSize, h.msgs, h.linkOpen⟩
  rw [← List.append_assoc, ← h.wire, ← h.same.frmCksum]
  rfl

end Stages

/-- The start of an upload, 43_transmit R160. -/
theorem Sending.begin (h : TxInv s) (hs : s.txStage = .idle) (hv : s.frmValid = true) (ho : s.linkOpen = true)
    (r : Bool) :
    Sending s ((s.beginUpload r).reply .done) (if r then .rstLow else .magic) [] s.devAnswers 0 where
  inv := h.effect (exec_effect (exec_txUpload_accepted hs hv r))
  stage := rfl
  wire := (List.append_nil _).symm
  answers := rfl
  sent := rfl
  linkOpen := ho
  err := rfl
  msgs := rfl
  same := ⟨rfl, rfl, rfl, fun _ => rfl⟩

/-- From the start to the frame's first byte, with the reset pulse or without. -/
theorem Sending.opening (h : TxInv s) (hs : s.txStage = .idle) (hv : s.frmValid = true) (ho : s.linkOpen = true)
    (r : Bool) {answers : List DevAnswer} (ha : s.devAnswers = List.replicate (if r then 2 else 0) .ok ++ answers) :
    ∃ v, RunsTo (if r then 2 else 0) ((s.beginUpload r).reply .done) v ∧
      Sending s v .magic (if r then [.line .a .active, .wait .tDown s.cfgTDown, .line .a .inactive,
        .wait .tSettle s.cfgTSettle] else []) answers 0 := by
  have hbegin := Sending.begin h hs hv ho r
  rw [ha] at hbegin
  cases r with
  | false => exact ⟨_, .refl _, hbegin⟩
  | true => exact hbegin.resetPulse

/-! ## The obligation -/

/-- Settles O41: opening, head, chunks and checksum are as many steps as the fuel admits. -/
theorem uploadSendsTheFrame : Obligations.UploadSendsTheFrame := by
  intro s r payload rest h hs hv ho hpay hanswers
  refine ⟨by rw [writtenBytes_uploadTrace r h.chunk]; exact State.frame_of_read hv hpay, ?_⟩
  have hlen : payload.length = s.frmSize.toNat := ((Memory.readRun_eq_some h.payWf _ _ _).1 hpay).1
  have hquestions : s.devAnswers = List.replicate (if r then 2 else 0) .ok ++
      (.ok :: .ok :: (List.replicate (payloadChunks s payload).length .ok ++ .ok :: rest)) := by
    have hcount : uploadQuestions r s payload =
        (if r then 2 else 0) + (2 + ((payloadChunks s payload).length + 1)) := by
      rw [uploadQuestions]; omega
    rw [hanswers, hcount, List.replicate_add, List.replicate_add, List.replicate_add]
    simp
  obtain ⟨u1, hrun1, h1⟩ := Sending.opening h hs hv ho r hquestions
  obtain ⟨u2, hrun2, h2⟩ := h1.head
  obtain ⟨u3, hrun3, h3⟩ := Sending.payload hpay payload.length (n := 0) (by omega) h2
  obtain ⟨t, hx, hinv, hwire, hidle, hok, hsent, hfrm, herr, hdev, hp, hsize, hm, hl⟩ := h3.finish
  have hrun := ((hrun1.trans hrun2).trans hrun3).trans (.step (h3.busy (by decide)) hx (.refl t))
  have hchunks : (payloadChunks s payload).length ≤ payload.length := chunksOf_length_le _ _ _
  have hfuel : uploadFuel ((s.beginUpload r).reply .done) =
      payload.length - (payloadChunks s payload).length + (if r then 1 else 3) +
        (0 + 1 + ((payloadChunks s payload).length + (4 + if r then 2 else 0))) := by
    show s.frmSize.toNat + 8 = _
    rw [← hlen]
    cases r <;> simp <;> omega
  have hupload : upload r s = .next t := by
    rw [upload, exec_txUpload_accepted hs hv r]
    show stepUntilIdle (uploadFuel _) _ = _
    rw [hfuel]
    exact (hrun _).trans (stepUntilIdle_idle hidle _)
  refine ⟨t, hupload, ?_, hidle, hok, hsent, hinv.progressOk hok, hfrm, herr, hdev, hp, hsize, hm, hl⟩
  rw [hwire, uploadTrace]
  rfl

end Sys2Proof.Machine
end
